-- ==== Sys2Proof/Word.lean ====
section
/-! DEFINITION. The word types of the CHIP-8 core (00_scope.md R6, R9, R10): every value is unsigned,
bit 0 is the least significant bit, and arithmetic on a fixed width is modulo that width. -/

namespace Sys2Proof

/-- A 4-bit field of an instruction word: a register number, or DXYN's row count (R91, R92). -/
abbrev Nibble := BitVec 4

/-- A general register, a memory cell or a timer: 8 bits (R21, R23, R31). -/
abbrev Byte := BitVec 8

/-- The index register, the program counter or a stack entry: 12 bits, so arithmetic on it is
modulo 4096 (R25, R26, R27). -/
abbrev Addr := BitVec 12

/-- An instruction word: 16 bits (R90). -/
abbrev Word := BitVec 16

/-- The register number of VF, the register that doubles as the flag output (R24). -/
abbrev vF : Nibble := 0xF#4

end Sys2Proof
end

