-- ==== Sys2Proof/Syntax.lean ====
section
/-! DEFINITION. The 34 instructions of the opcode map (30_encoding.md R100), one constructor per row of
spec/opcode_table.json. A field has the width its encoding gives it (R91), so a term names only
registers and immediates that exist (R92, R94); a field the decoder reads and the operation ignores
is kept, so that no bit of a word is lost (R97, R102). -/

namespace Sys2Proof

/-- An instruction of the core; each constructor is named by its hexadecimal pattern (R12). -/
inductive Instr where
  /-- 00E0: clear the display (R201). -/
  | cls
  /-- 00EE: return (R140). -/
  | ret
  /-- 1NNN: jump (R141). -/
  | jp (nnn : Addr)
  /-- 2NNN: call (R142). -/
  | call (nnn : Addr)
  /-- 3XKK: skip if Vx = kk (R150). -/
  | seImm (x : Nibble) (kk : Byte)
  /-- 4XKK: skip if Vx ≠ kk (R151). -/
  | sneImm (x : Nibble) (kk : Byte)
  /-- 5XY0: skip if Vx = Vy (R152); `n` is the low nibble, not examined (R97). -/
  | seReg (x y n : Nibble)
  /-- 6XKK: Vx ← kk (R161). -/
  | ldImm (x : Nibble) (kk : Byte)
  /-- 7XKK: Vx ← Vx + kk, no flag (R162). -/
  | addImm (x : Nibble) (kk : Byte)
  /-- 8XY0: Vx ← Vy (R163). -/
  | ldReg (x y : Nibble)
  /-- 8XY1: Vx ← Vx OR Vy (R164). -/
  | orReg (x y : Nibble)
  /-- 8XY2: Vx ← Vx AND Vy (R165). -/
  | andReg (x y : Nibble)
  /-- 8XY3: Vx ← Vx XOR Vy (R166). -/
  | xorReg (x y : Nibble)
  /-- 8XY4: Vx ← Vx + Vy, VF ← carry (R167). -/
  | addReg (x y : Nibble)
  /-- 8XY5: VF ← Vx > Vy, Vx ← Vx − Vy (R168). -/
  | subReg (x y : Nibble)
  /-- 8XY6: VF ← bit 0 of Vx, Vx ← Vx >> 1 (R169); `y` is decoded and ignored (R102). -/
  | shr (x y : Nibble)
  /-- 8XY7: VF ← Vy > Vx, Vx ← Vy − Vx (R170). -/
  | subnReg (x y : Nibble)
  /-- 8XYE: VF ← bit 7 of Vx, Vx ← Vx << 1 (R171); `y` is decoded and ignored (R102). -/
  | shl (x y : Nibble)
  /-- 9XY0: skip if Vx ≠ Vy (R153); `n` is the low nibble, not examined (R97). -/
  | sneReg (x y n : Nibble)
  /-- ANNN: I ← nnn (R180). -/
  | ldI (nnn : Addr)
  /-- BNNN: jump to nnn + V0 (R143). -/
  | jpV0 (nnn : Addr)
  /-- CXKK: Vx ← RND AND kk (R172). -/
  | rnd (x : Nibble) (kk : Byte)
  /-- DXYN: draw an n-row sprite at (Vx, Vy) (R202). -/
  | drw (x y n : Nibble)
  /-- EX9E: skip if the key Vx AND 0xF is down (R210). -/
  | skp (x : Nibble)
  /-- EXA1: skip if the key Vx AND 0xF is up (R211). -/
  | sknp (x : Nibble)
  /-- FX07: Vx ← DT (R213). -/
  | ldFromDt (x : Nibble)
  /-- FX0A: wait for a key, Vx ← its index (R212). -/
  | waitKey (x : Nibble)
  /-- FX15: DT ← Vx (R214). -/
  | ldToDt (x : Nibble)
  /-- FX18: ST ← Vx (R215). -/
  | ldToSt (x : Nibble)
  /-- FX1E: I ← I + Vx, VF ← overflow (R181). -/
  | addI (x : Nibble)
  /-- FX29: I ← 5 × Vx (R182). -/
  | ldGlyph (x : Nibble)
  /-- FX33: the decimal digits of Vx to memory at I (R183). -/
  | storeBcd (x : Nibble)
  /-- FX55: V0 to Vx to memory at I (R184). -/
  | storeRegs (x : Nibble)
  /-- FX65: V0 to Vx from memory at I (R185). -/
  | loadRegs (x : Nibble)
deriving DecidableEq, Repr

end Sys2Proof
end

