-- ==== Sys2Proof/WellFormed.lean ====
section
/-! DEFINITION. Which terms are written as an assembler writes them. Every field of Instr has exactly
the width its encoding gives it, so there is no term that names a register or an immediate which does
not exist (30_encoding.md R92, R94) and nothing is left to refuse there. What a term can still get
wrong is a don't-care bit (R97, R102): the machine runs such a word like its canonical spelling, but
R104 assembles only the canonical one. -/

namespace Sys2Proof

/-- The instruction is in its canonical spelling (R97, R104): the ignored low nibble of 5XY0 and 9XY0
and the ignored `y` of 8XY6 and 8XYE are 0. Machine and decoder accept every term, canonical or not. -/
def Instr.wellFormed : Instr → Bool
  | .seReg _ _ n => n == 0#4
  | .sneReg _ _ n => n == 0#4
  | .shr _ y => y == 0#4
  | .shl _ y => y == 0#4
  | .cls | .ret | .jp _ | .call _ | .seImm _ _ | .sneImm _ _ | .ldImm _ _ | .addImm _ _
  | .ldReg _ _ | .orReg _ _ | .andReg _ _ | .xorReg _ _ | .addReg _ _ | .subReg _ _
  | .subnReg _ _ | .ldI _ | .jpV0 _ | .rnd _ _ | .drw _ _ _ | .skp _ | .sknp _ | .ldFromDt _
  | .waitKey _ | .ldToDt _ | .ldToSt _ | .addI _ | .ldGlyph _ | .storeBcd _ | .storeRegs _
  | .loadRegs _ => true

/-- The canonical spelling of an instruction: its don't-care bits set to 0 (R104). -/
def Instr.canonical : Instr → Instr
  | .seReg x y _ => .seReg x y 0#4
  | .sneReg x y _ => .sneReg x y 0#4
  | .shr x _ => .shr x 0#4
  | .shl x _ => .shl x 0#4
  | i => i

end Sys2Proof
end

