-- ==== Sys2Proof/Decode.lean ====
section
/-! DEFINITION. The decoder: the fields of an instruction word (30_encoding.md R91), the two-level
dispatch (R95 to R99), total on every word and on every list of bytes, each rejection by name; then
the encoder, written from the formats of R93 and the rows of R100; then the rows themselves. -/

namespace Sys2Proof

/-- Why bytes decode to no instruction: too few of them, or a word of the UNKNOWN set of R101, named by
the family it belongs to. -/
inductive Reject where
  /-- Fewer than the two bytes every instruction has (R90). -/
  | truncated
  /-- A word 0x0NNN other than 0x00E0 and 0x00EE (R96). -/
  | unknownFamily0
  /-- A word 0x8XYn with n one of 8 to D or F (R98). -/
  | unknownFamily8
  /-- A word 0xEXkk with kk not 9E or A1 (R99). -/
  | unknownFamilyE
  /-- A word 0xFXkk with kk not one of the nine of R99. -/
  | unknownFamilyF
deriving DecidableEq, Repr

/-! ## The fields of a word (R91) -/

/-- `op` = iw[15:12], the family. -/
def fieldOp (iw : Word) : Nibble := iw.extractLsb' 12 4
/-- `x` = iw[11:8]. -/
def fieldX (iw : Word) : Nibble := iw.extractLsb' 8 4
/-- `y` = iw[7:4]. -/
def fieldY (iw : Word) : Nibble := iw.extractLsb' 4 4
/-- `n` = iw[3:0]. -/
def fieldN (iw : Word) : Nibble := iw.extractLsb' 0 4
/-- `kk` = iw[7:0]. -/
def fieldKk (iw : Word) : Byte := iw.extractLsb' 0 8
/-- `nnn` = iw[11:0]. -/
def fieldNnn (iw : Word) : Addr := iw.extractLsb' 0 12

/-! ## The decoder -/

/-- Family 0: the whole word is compared (R96). -/
def decodeFamily0 (iw : Word) : Except Reject Instr :=
  if iw = 0x00E0#16 then .ok .cls
  else if iw = 0x00EE#16 then .ok .ret
  else .error .unknownFamily0

/-- Family 8: the low nibble selects (R98). -/
def decodeFamily8 (iw : Word) : Except Reject Instr :=
  match (fieldN iw).toNat with
  | 0x0 => .ok (.ldReg (fieldX iw) (fieldY iw))
  | 0x1 => .ok (.orReg (fieldX iw) (fieldY iw))
  | 0x2 => .ok (.andReg (fieldX iw) (fieldY iw))
  | 0x3 => .ok (.xorReg (fieldX iw) (fieldY iw))
  | 0x4 => .ok (.addReg (fieldX iw) (fieldY iw))
  | 0x5 => .ok (.subReg (fieldX iw) (fieldY iw))
  | 0x6 => .ok (.shr (fieldX iw) (fieldY iw))
  | 0x7 => .ok (.subnReg (fieldX iw) (fieldY iw))
  | 0xE => .ok (.shl (fieldX iw) (fieldY iw))
  | _ => .error .unknownFamily8

/-- Family E: the low byte selects (R99). -/
def decodeFamilyE (iw : Word) : Except Reject Instr :=
  match (fieldKk iw).toNat with
  | 0x9E => .ok (.skp (fieldX iw))
  | 0xA1 => .ok (.sknp (fieldX iw))
  | _ => .error .unknownFamilyE

/-- Family F: the low byte selects (R99). -/
def decodeFamilyF (iw : Word) : Except Reject Instr :=
  match (fieldKk iw).toNat with
  | 0x07 => .ok (.ldFromDt (fieldX iw))
  | 0x0A => .ok (.waitKey (fieldX iw))
  | 0x15 => .ok (.ldToDt (fieldX iw))
  | 0x18 => .ok (.ldToSt (fieldX iw))
  | 0x1E => .ok (.addI (fieldX iw))
  | 0x29 => .ok (.ldGlyph (fieldX iw))
  | 0x33 => .ok (.storeBcd (fieldX iw))
  | 0x55 => .ok (.storeRegs (fieldX iw))
  | 0x65 => .ok (.loadRegs (fieldX iw))
  | _ => .error .unknownFamilyF

/-- `Decode(iw)` (R95, R97): the top nibble selects the family; families 0, 8, E and F have a second
level. Total on the 65536 words. -/
def decodeWord (iw : Word) : Except Reject Instr :=
  match (fieldOp iw).toNat with
  | 0x0 => decodeFamily0 iw
  | 0x1 => .ok (.jp (fieldNnn iw))
  | 0x2 => .ok (.call (fieldNnn iw))
  | 0x3 => .ok (.seImm (fieldX iw) (fieldKk iw))
  | 0x4 => .ok (.sneImm (fieldX iw) (fieldKk iw))
  | 0x5 => .ok (.seReg (fieldX iw) (fieldY iw) (fieldN iw))
  | 0x6 => .ok (.ldImm (fieldX iw) (fieldKk iw))
  | 0x7 => .ok (.addImm (fieldX iw) (fieldKk iw))
  | 0x8 => decodeFamily8 iw
  | 0x9 => .ok (.sneReg (fieldX iw) (fieldY iw) (fieldN iw))
  | 0xA => .ok (.ldI (fieldNnn iw))
  | 0xB => .ok (.jpV0 (fieldNnn iw))
  | 0xC => .ok (.rnd (fieldX iw) (fieldKk iw))
  | 0xD => .ok (.drw (fieldX iw) (fieldY iw) (fieldN iw))
  | 0xE => decodeFamilyE iw
  | _ => decodeFamilyF iw  -- the field has 4 bits: op = 0xF

/-- The word two bytes make: the byte at the lower address is the high byte (20_memory.md R65). -/
def wordOfBytes (hi lo : Byte) : Word := hi ++ lo

/-- The two bytes of a word as memory holds them, high byte first (R65). -/
def bytesOfWord (iw : Word) : List Byte := [iw.extractLsb' 8 8, iw.extractLsb' 0 8]

/-- The instruction at the head of a list of bytes, with the rest of the list (R90: one length only). -/
def decode : List Byte → Except Reject (Instr × List Byte)
  | hi :: lo :: rest =>
    match decodeWord (wordOfBytes hi lo) with
    | .ok i => .ok (i, rest)
    | .error e => .error e
  | [_] => .error .truncated
  | [] => .error .truncated

/-! ## The encoder (R93, R100) -/

/-- Format A: `oooo nnnn nnnn nnnn`. -/
def formatA (op : Nibble) (nnn : Addr) : Word := op ++ nnn
/-- Format RI: `oooo xxxx kkkk kkkk`. Format R is this one with a fixed low byte. -/
def formatRI (op x : Nibble) (kk : Byte) : Word := op ++ (x ++ kk : Addr)
/-- Format RRN: `oooo xxxx yyyy nnnn`. Format RR is this one with a fixed or ignored low nibble. -/
def formatRRN (op x y n : Nibble) : Word := op ++ (x ++ (y ++ n : Byte) : Addr)

/-- The word of an instruction: its row's match bits and its fields (R93, R100, R104). -/
def encode : Instr → Word
  | .cls => 0x00E0#16
  | .ret => 0x00EE#16
  | .jp nnn => formatA 0x1#4 nnn
  | .call nnn => formatA 0x2#4 nnn
  | .seImm x kk => formatRI 0x3#4 x kk
  | .sneImm x kk => formatRI 0x4#4 x kk
  | .seReg x y n => formatRRN 0x5#4 x y n
  | .ldImm x kk => formatRI 0x6#4 x kk
  | .addImm x kk => formatRI 0x7#4 x kk
  | .ldReg x y => formatRRN 0x8#4 x y 0x0#4
  | .orReg x y => formatRRN 0x8#4 x y 0x1#4
  | .andReg x y => formatRRN 0x8#4 x y 0x2#4
  | .xorReg x y => formatRRN 0x8#4 x y 0x3#4
  | .addReg x y => formatRRN 0x8#4 x y 0x4#4
  | .subReg x y => formatRRN 0x8#4 x y 0x5#4
  | .shr x y => formatRRN 0x8#4 x y 0x6#4
  | .subnReg x y => formatRRN 0x8#4 x y 0x7#4
  | .shl x y => formatRRN 0x8#4 x y 0xE#4
  | .sneReg x y n => formatRRN 0x9#4 x y n
  | .ldI nnn => formatA 0xA#4 nnn
  | .jpV0 nnn => formatA 0xB#4 nnn
  | .rnd x kk => formatRI 0xC#4 x kk
  | .drw x y n => formatRRN 0xD#4 x y n
  | .skp x => formatRI 0xE#4 x 0x9E#8
  | .sknp x => formatRI 0xE#4 x 0xA1#8
  | .ldFromDt x => formatRI 0xF#4 x 0x07#8
  | .waitKey x => formatRI 0xF#4 x 0x0A#8
  | .ldToDt x => formatRI 0xF#4 x 0x15#8
  | .ldToSt x => formatRI 0xF#4 x 0x18#8
  | .addI x => formatRI 0xF#4 x 0x1E#8
  | .ldGlyph x => formatRI 0xF#4 x 0x29#8
  | .storeBcd x => formatRI 0xF#4 x 0x33#8
  | .storeRegs x => formatRI 0xF#4 x 0x55#8
  | .loadRegs x => formatRI 0xF#4 x 0x65#8

/-- The bytes of an instruction as a program image holds them (R65, R232). -/
def encodeBytes (i : Instr) : List Byte := bytesOfWord (encode i)

/-! ## The opcode map (R100) -/

/-- A row of the opcode map: a word selects it when `iw AND mask = bits`. -/
structure Row where
  mask : Word
  bits : Word
deriving DecidableEq, Repr

/-- The word selects the row. -/
def Row.selects (r : Row) (iw : Word) : Bool := iw &&& r.mask == r.bits

/-- The row of R100 an instruction belongs to. -/
def Instr.row : Instr → Row
  | .cls => ⟨0xFFFF#16, 0x00E0#16⟩
  | .ret => ⟨0xFFFF#16, 0x00EE#16⟩
  | .jp _ => ⟨0xF000#16, 0x1000#16⟩
  | .call _ => ⟨0xF000#16, 0x2000#16⟩
  | .seImm _ _ => ⟨0xF000#16, 0x3000#16⟩
  | .sneImm _ _ => ⟨0xF000#16, 0x4000#16⟩
  | .seReg _ _ _ => ⟨0xF000#16, 0x5000#16⟩
  | .ldImm _ _ => ⟨0xF000#16, 0x6000#16⟩
  | .addImm _ _ => ⟨0xF000#16, 0x7000#16⟩
  | .ldReg _ _ => ⟨0xF00F#16, 0x8000#16⟩
  | .orReg _ _ => ⟨0xF00F#16, 0x8001#16⟩
  | .andReg _ _ => ⟨0xF00F#16, 0x8002#16⟩
  | .xorReg _ _ => ⟨0xF00F#16, 0x8003#16⟩
  | .addReg _ _ => ⟨0xF00F#16, 0x8004#16⟩
  | .subReg _ _ => ⟨0xF00F#16, 0x8005#16⟩
  | .shr _ _ => ⟨0xF00F#16, 0x8006#16⟩
  | .subnReg _ _ => ⟨0xF00F#16, 0x8007#16⟩
  | .shl _ _ => ⟨0xF00F#16, 0x800E#16⟩
  | .sneReg _ _ _ => ⟨0xF000#16, 0x9000#16⟩
  | .ldI _ => ⟨0xF000#16, 0xA000#16⟩
  | .jpV0 _ => ⟨0xF000#16, 0xB000#16⟩
  | .rnd _ _ => ⟨0xF000#16, 0xC000#16⟩
  | .drw _ _ _ => ⟨0xF000#16, 0xD000#16⟩
  | .skp _ => ⟨0xF0FF#16, 0xE09E#16⟩
  | .sknp _ => ⟨0xF0FF#16, 0xE0A1#16⟩
  | .ldFromDt _ => ⟨0xF0FF#16, 0xF007#16⟩
  | .waitKey _ => ⟨0xF0FF#16, 0xF00A#16⟩
  | .ldToDt _ => ⟨0xF0FF#16, 0xF015#16⟩
  | .ldToSt _ => ⟨0xF0FF#16, 0xF018#16⟩
  | .addI _ => ⟨0xF0FF#16, 0xF01E#16⟩
  | .ldGlyph _ => ⟨0xF0FF#16, 0xF029#16⟩
  | .storeBcd _ => ⟨0xF0FF#16, 0xF033#16⟩
  | .storeRegs _ => ⟨0xF0FF#16, 0xF055#16⟩
  | .loadRegs _ => ⟨0xF0FF#16, 0xF065#16⟩

/-! ## The host's view of the decoder -/

/-- The instruction the decoder reads from the instruction whose bits are `w`, numbered as
spec/opcode_table.json numbers them; every bit at or above `nbits` is 0. The word is laid out high
byte first, as memory holds it (R65). -/
def decodeTableWord (nbits w : Nat) : Option Instr :=
  match decode (bytesOfWord (BitVec.ofNat 16 (w % 2 ^ nbits))) with
  | .ok (i, _) => some i
  | .error _ => none

end Sys2Proof
end

