-- ==== Sys2Proof/Config.lean ====
section
/-! DEFINITION. What an implementation fixes (the named parameters of 00_scope.md R7) and the one
value the spec leaves free at each use (the random byte, R8 and R238). -/

namespace Sys2Proof

/-- The font table: 16 glyphs of 5 bytes, glyph `g` at `5 * g` (R22). -/
abbrev Font := Vector (Vector Byte 5) 16

/-- The three named parameters of R7, fixed for the life of an instance (R38). A statement about
every state holds for every value of them, because State carries them (log entry 1). -/
structure Config where
  /-- `STACK_DEPTH`: how many return addresses the stack can hold; `none` is `unbounded` (R25). -/
  stackDepth : Option Nat
  /-- `CYCLES_PER_TIMER_TICK`: machine cycles per timer decrement, at least 1 (R32, R128). -/
  cyclesPerTimerTick : Nat
  /-- `FONT`: the 80 bytes that reset loads at 0x000 to 0x04F (R22). -/
  font : Font
deriving DecidableEq, Repr

/-- The one condition R7 puts on the parameters: the timer ratio is at least 1. -/
abbrev Config.Wf (c : Config) : Prop := 1 ≤ c.cyclesPerTimerTick

/-- The default font table of R22. PRESUMED: the spec takes the bytes from general knowledge
(log entry 3). -/
def defaultFont : Font :=
  #v[#v[0xF0, 0x90, 0x90, 0x90, 0xF0], #v[0x20, 0x60, 0x20, 0x20, 0x70],
     #v[0xF0, 0x10, 0xF0, 0x80, 0xF0], #v[0xF0, 0x10, 0xF0, 0x10, 0xF0],
     #v[0x90, 0x90, 0xF0, 0x10, 0x10], #v[0xF0, 0x80, 0xF0, 0x10, 0xF0],
     #v[0xF0, 0x80, 0xF0, 0x90, 0xF0], #v[0xF0, 0x10, 0x20, 0x40, 0x40],
     #v[0xF0, 0x90, 0xF0, 0x90, 0xF0], #v[0xF0, 0x90, 0xF0, 0x10, 0xF0],
     #v[0xF0, 0x90, 0xF0, 0x90, 0x90], #v[0xE0, 0x90, 0xE0, 0x90, 0xE0],
     #v[0xF0, 0x80, 0x80, 0x80, 0xF0], #v[0xE0, 0x90, 0x90, 0x90, 0xE0],
     #v[0xF0, 0x80, 0xF0, 0x80, 0xF0], #v[0xF0, 0x80, 0xF0, 0x80, 0x80]]

/-- The defaults R7 recommends: an unbounded stack, one timer tick per cycle, the font of R22
(log entry 2). -/
def Config.default : Config where
  stackDepth := none
  cyclesPerTimerTick := 1
  font := defaultFont

/-- RND, the random input of R238: the byte supplied from outside to the `n`-th machine cycle. It has
no body, so nothing constrains any value of it or relates two of them (log entry 4). -/
opaque Config.rndInput (n : Nat) : Byte

end Sys2Proof
end

