-- ==== Sys2Proof/Machine/State.lean ====
section
/-! DEFINITION. The state of the core (10_state.md R20 to R34) as plain data, the ways a step can stop
(there is one, and it is not used), and the state after reset (R37, R280). -/

namespace Sys2Proof.Machine

/-- The reasons a machine cycle stops with a fault: none. The cycle is total (40_cycle.md R120, R130):
every condition of 60_exceptions.md is reported and execution goes on, so no constructor is needed.
That is exact, neither safe nor unsafe: nothing of the spec is left out by it. -/
inductive Fault where
deriving DecidableEq, Repr

/-- The reasons an instruction is turned away. -/
inductive Refusal where
  /-- Raised by `exec` for an instruction that has no meaning yet. Safe: the model stops where the
  hardware goes on. No arm of this model raises it. -/
  | notModelled (mnemonic : String)
deriving DecidableEq, Repr

/-- The conditions a machine cycle can report (R34, 60_exceptions.md R250). -/
inductive Condition where
  /-- NONE, code 0: the cycle met no condition. -/
  | noCondition
  /-- UNKNOWN_OPCODE, code 1: the word matches no row of the opcode map (R252). -/
  | unknownOpcode
  /-- STACK_UNDERFLOW, code 2: 00EE with an empty stack (R253). -/
  | stackUnderflow
  /-- OUT_OF_BOUNDS, code 3: an effective address above 0xFFF (R254). -/
  | outOfBounds
  /-- STACK_OVERFLOW, code 4: 2NNN with a full stack (R255). -/
  | stackOverflow
deriving DecidableEq, Repr

/-- REPORT, the record a machine cycle hands out (R34, R251). -/
structure Report where
  /-- The condition, or `noCondition`. -/
  code : Condition
  /-- The value PC had when the cycle began. -/
  iaddr : Addr
  /-- The fetched instruction word; 0 when the fetch itself was out of range. -/
  word : Word
  /-- For OUT_OF_BOUNDS the highest effective address needed; 0 for every other code. -/
  addr : BitVec 13
deriving DecidableEq, Repr

/-- MEM as a list of (address, byte) pairs in one canonical form (`Memory.wf` of Machine/Ops.lean); an
address that is not listed reads as `Memory.unlisted`. -/
abbrev Memory := List Host.Cell

/-- DISP as a grid: 32 rows of 64 cells. The cell the spec numbers `x + y * 64` (R28, R200) is the cell
`x` of row `y`. -/
abbrev Display := Vector (Vector Bool 64) 32

/-- The architectural state, R20's tuple (MEM, V, I, PC, STACK, DISP, DRAW, KEY, DT, ST, TDIV, ERR),
then three fields of the model's own: the cycle's output, the count that draws the free random byte,
and the parameters. -/
structure State where
  /-- MEM: 4096 cells of 8 bits (R21). -/
  mem : Memory
  /-- V0 to VF (R23); VF doubles as the flag output (R24). -/
  v : Vector Byte 16
  /-- I, the index register (R26). -/
  i : Addr
  /-- PC, the program counter (R27). -/
  pc : Addr
  /-- STACK, the return addresses; the last element is the top (R25). -/
  stack : List Addr
  /-- DISP: 2048 cells of 1 bit (R28). -/
  disp : Display
  /-- DRAW, the dirty flag (R29). -/
  draw : Bool
  /-- KEY: `true` is down (R30). -/
  key : Vector Bool 16
  /-- DT, the delay timer (R31). -/
  dt : Byte
  /-- ST, the sound timer (R31). -/
  st : Byte
  /-- TDIV: cycles since the last timer tick (R32). -/
  tdiv : Nat
  /-- ERR: bit 0 UNKNOWN_OPCODE, 1 STACK_UNDERFLOW, 2 OUT_OF_BOUNDS, 3 STACK_OVERFLOW (R33). -/
  err : BitVec 4
  /-- The report the last machine cycle handed out (R34 calls it an output, not state). No
  instruction reads it. DESIGN CHOICE (log entry 5): an output needs a place to stand. -/
  report : Report
  /-- How many machine cycles have drawn a random byte. The model's own field; DESIGN CHOICE (log
  entry 4). -/
  rndCount : Nat
  /-- The parameters of R7. No step writes them (R38). DESIGN CHOICE (log entry 1). -/
  cfg : Config
deriving DecidableEq, Repr

/-- The state right after reset under given parameters (R37, R280): memory lists nothing, so it reads
as the font table below 0x050 and 0x00 elsewhere; everything else is zero, empty or up; PC = 0x200. -/
def State.resetWith (cfg : Config) : State where
  mem := []
  v := Vector.replicate 16 0x00#8
  i := 0x000#12
  pc := 0x200#12
  stack := []
  disp := Vector.replicate 32 (Vector.replicate 64 false)
  draw := false
  key := Vector.replicate 16 false
  dt := 0x00#8
  st := 0x00#8
  tdiv := 0
  err := 0x0#4
  report := { code := .noCondition, iaddr := 0#12, word := 0#16, addr := 0#13 }
  rndCount := 0
  cfg := cfg

/-- The machine right after reset, under the default parameters of R7. -/
def State.reset : State := State.resetWith Config.default

end Sys2Proof.Machine
end

