-- ==== Sys2Proof/Machine/Ops.lean ====
section
/-! DEFINITION. The named operations every meaning is written with: memory (20_memory.md), registers and
the call stack (10_state.md), the timers, the display cells, and raising a condition, the one thing
this machine has where others take an exception (60_exceptions.md R259). -/

namespace Sys2Proof.Machine

/-! ## Memory (R21, R22, R60 to R64) -/

/-- What an unlisted address reads as: the reset contents, the font table at 0x000 to 0x04F and 0x00
everywhere else (R37, R61). -/
def Memory.unlisted (font : Font) (a : Nat) : Byte :=
  if h : a < 80 then (font[a / 5]'(by omega))[a % 5]'(by omega) else 0x00#8

/-- The byte at an address. -/
def Memory.read (font : Font) : Memory → Nat → Byte
  | [], a => Memory.unlisted font a
  | (k, c) :: m, a => if a = k then c else Memory.read font m a

/-- Lists a byte in front of `m`, unless it is what the address reads as unlisted. -/
def Memory.put (font : Font) (a : Nat) (b : Byte) (m : Memory) : Memory :=
  if b = Memory.unlisted font a then m else (a, b) :: m

/-- Writes one byte, keeping the canonical form. -/
def Memory.write (font : Font) : Memory → Nat → Byte → Memory
  | [], a, b => Memory.put font a b []
  | (k, c) :: m, a, b =>
    if a < k then Memory.put font a b ((k, c) :: m)
    else if a = k then Memory.put font a b m
    else (k, c) :: Memory.write font m a b

/-- Every listed address is at least `lo`, rising, below 4096, and holds something other than what it
would read as unlisted. -/
def Memory.wfFrom (font : Font) : Nat → Memory → Bool
  | _, [] => true
  | lo, (k, c) :: m =>
    decide (lo ≤ k) && decide (k < 4096) && decide (c ≠ Memory.unlisted font k)
      && Memory.wfFrom font (k + 1) m

/-- The canonical form: equal memories are equal lists. -/
def Memory.wf (font : Font) (m : Memory) : Bool := Memory.wfFrom font 0 m

/-- Writes bytes at `a`, `a + 1`, and so on. -/
def Memory.writeBytes (font : Font) : Memory → Nat → List Byte → Memory
  | m, _, [] => m
  | m, a, b :: bs => Memory.writeBytes font (Memory.write font m a b) (a + 1) bs

/-- The `n` bytes at `a`, `a + 1`, and so on. -/
def Memory.readBytes (font : Font) (m : Memory) : Nat → Nat → List Byte
  | _, 0 => []
  | a, n + 1 => Memory.read font m a :: Memory.readBytes font m (a + 1) n

/-! ## One named update per field of State -/

def State.setMem (s : State) (m : Memory) : State := { s with mem := m }
def State.setV (s : State) (v : Vector Byte 16) : State := { s with v := v }
def State.setI (s : State) (a : Addr) : State := { s with i := a }
def State.setPc (s : State) (a : Addr) : State := { s with pc := a }
def State.setStack (s : State) (l : List Addr) : State := { s with stack := l }
def State.setDisp (s : State) (d : Display) : State := { s with disp := d }
def State.setDraw (s : State) (b : Bool) : State := { s with draw := b }
def State.setKey (s : State) (k : Vector Bool 16) : State := { s with key := k }
def State.setDt (s : State) (b : Byte) : State := { s with dt := b }
def State.setSt (s : State) (b : Byte) : State := { s with st := b }
def State.setTdiv (s : State) (n : Nat) : State := { s with tdiv := n }
def State.setErr (s : State) (e : BitVec 4) : State := { s with err := e }
def State.setReport (s : State) (r : Report) : State := { s with report := r }
def State.setRndCount (s : State) (n : Nat) : State := { s with rndCount := n }

/-! ## Registers, memory bytes and keys of a state -/

/-- `V[x]` (R11, R23): every 4-bit number names a register (R92). -/
def State.reg (s : State) (x : Nibble) : Byte := s.v[x.toNat]'x.isLt

/-- `V[x] <- b` (R11, R23). -/
def State.setReg (s : State) (x : Nibble) (b : Byte) : State := s.setV (s.v.set x.toNat b x.isLt)

/-- `KEY[k]` (R30). -/
def State.keyDown (s : State) (k : Nibble) : Bool := s.key[k.toNat]'k.isLt

/-- `MemRead(a, 1)` (R64), once the range has been checked. -/
def State.memRead (s : State) (a : Nat) : Byte := Memory.read s.cfg.font s.mem a

/-- The `n` bytes from `a` on. -/
def State.memReadBytes (s : State) (a n : Nat) : List Byte := Memory.readBytes s.cfg.font s.mem a n

/-- `MemWrite(a + k, 1, bs[k])` for every `k` (R64), once the range has been checked. -/
def State.memWriteBytes (s : State) (a : Nat) (bs : List Byte) : State :=
  s.setMem (Memory.writeBytes s.cfg.font s.mem a bs)

/-- Loads bytes into the registers `k`, `k + 1`, and so on; a number past 15 names none. -/
def loadRegsFrom : Nat → List Byte → Vector Byte 16 → Vector Byte 16
  | _, [], v => v
  | k, b :: bs, v => loadRegsFrom (k + 1) bs (v.setIfInBounds k b)

/-! ## Raising a condition (R11, R127, R250, R259) -/

/-- The bit of ERR that a condition sets: bit `code - 1` (R33, R120, R250). -/
def Condition.errBit : Condition → BitVec 4
  | .noCondition => 0b0000#4
  | .unknownOpcode => 0b0001#4
  | .stackUnderflow => 0b0010#4
  | .outOfBounds => 0b0100#4
  | .stackOverflow => 0b1000#4

/-- The numeric code of a condition (R250). -/
def Condition.code : Condition → Nat
  | .noCondition => 0
  | .unknownOpcode => 1
  | .stackUnderflow => 2
  | .outOfBounds => 3
  | .stackOverflow => 4

/-- `raise <Condition>(a)` (R11, R127, R259): the report the cycle began with (its `iaddr` and `word`)
takes the condition and the address, and the condition's ERR bit is set. Nothing else changes: there
is no handler, no vector, no saved PC and no mode. It is applied to the state in which nothing of the
Execute step has happened. -/
def State.raise (s : State) (c : Condition) (a : Nat) : State :=
  (s.setReport { s.report with code := c, addr := BitVec.ofNat 13 a }).setErr (s.err ||| c.errBit)

/-- The bounds rule (R63): when the highest effective address is above 0xFFF the instruction does
nothing but raise OutOfBounds; else it has its effect. -/
def State.ifInBounds (s : State) (highest : Nat) (effect : State) : State :=
  if 0xFFF < highest then s.raise .outOfBounds highest else effect

/-! ## The call stack (R25) -/

/-- The stack holds `STACK_DEPTH` entries. -/
def State.stackFull (s : State) : Bool := s.cfg.stackDepth == some s.stack.length

/-- `push(a)` on a stack that is not full: the last element is the top. -/
def State.push (s : State) (a : Addr) : State := s.setStack (s.stack ++ [a])

/-- The top of the stack; `none` when it is empty. -/
def State.top (s : State) : Option Addr := s.stack.getLast?

/-- The removal that `pop()` does on a stack that is not empty. -/
def State.dropTop (s : State) : State := s.setStack s.stack.dropLast

/-! ## Control flow (R27, R154) -/

/-- "Skip next instruction": add 2 to the pre-advanced PC, modulo 4096, when the condition holds (R154). -/
def State.skipIf (s : State) (c : Bool) : State := if c then s.setPc (s.pc + 2) else s

/-! ## Timers (R128) -/

/-- A timer's decrement: it never goes below 0. -/
def countDown (t : Byte) : Byte := if t = 0x00#8 then t else t - 1

/-- `TimerTick()` (R128): TDIV counts cycles; when it reaches `CYCLES_PER_TIMER_TICK` it returns to 0 and
both timers count down. -/
def State.timerTick (s : State) : State :=
  if s.tdiv + 1 = s.cfg.cyclesPerTimerTick then
    ((s.setTdiv 0).setDt (countDown s.dt)).setSt (countDown s.st)
  else s.setTdiv (s.tdiv + 1)

/-! ## Display cells (R28, R200, R202) -/

/-- The cell at column `tx` of row `ty`; a coordinate outside the grid names no cell (R200). -/
def Display.cell (d : Display) (tx ty : Nat) : Bool :=
  if h : tx ≤ 63 ∧ ty ≤ 31 then (d[ty]'(by omega))[tx]'(by omega) else false

/-- `DISP[p]`, row-major: `p = x + y * 64` (R28). -/
def Display.pixel (d : Display) (p : Nat) : Bool := Display.cell d (p % 64) (p / 64)

/-- `DISP[tx + ty * 64] <- DISP[tx + ty * 64] XOR 1`; a coordinate outside the grid changes nothing. -/
def Display.toggle (d : Display) (tx ty : Nat) : Display :=
  if h : tx ≤ 63 ∧ ty ≤ 31 then
    d.set ty ((d[ty]'(by omega)).set tx (!(d[ty]'(by omega))[tx]'(by omega)) (by omega)) (by omega)
  else d

/-- The clear display: every cell 0 (R201). -/
def Display.clear : Display := Vector.replicate 32 (Vector.replicate 64 false)

/-- What DXYN works on: the display, and `c`, which says whether a cell has gone from 1 to 0 (R202). -/
structure Canvas where
  disp : Display
  collision : Bool
deriving DecidableEq, Repr

/-- One sprite bit landing on column `tx`, row `ty` (R202): a 0 or an off-grid target changes nothing;
else the cell is toggled and a cell that was 1 is a collision. -/
def Canvas.plot (c : Canvas) (bit : Bool) (tx ty : Nat) : Canvas :=
  if bit && decide (tx ≤ 63) && decide (ty ≤ 31) then
    { disp := Display.toggle c.disp tx ty, collision := c.collision || Display.cell c.disp tx ty }
  else c

/-- One sprite row: column offset `col` takes bit `7 - col` (R202, R203). -/
def Canvas.drawRow (c : Canvas) (b : Byte) (px ty : Nat) : Canvas :=
  (List.range 8).foldl (fun c col => c.plot (b.getLsbD (7 - col)) (px + col) ty) c

/-- The rows of a sprite, top row first, each one display row lower (R202). -/
def Canvas.drawRows : Canvas → List Byte → Nat → Nat → Canvas
  | c, [], _, _ => c
  | c, b :: bs, px, ty => Canvas.drawRows (c.drawRow b px ty) bs px (ty + 1)

end Sys2Proof.Machine
end

