-- ==== Sys2Proof/Machine/Cycle.lean ====
section
/-! DEFINITION. What the machine cycle does around an instruction: fetch, pre-advance, a failed fetch, an
UNKNOWN word, and the end of the cycle (40_cycle.md R120 to R122, R126, R128). -/

namespace Sys2Proof.Machine

/-- Step 1, Fetch (R121): MEM[PC] is the high byte and MEM[PC+1] the low byte; `none` when PC + 1 is above
0xFFF, which does not wrap. -/
def State.fetchWord (s : State) : Option Word :=
  if 0xFFF < s.pc.toNat + 1 then none
  else some (wordOfBytes (s.memRead s.pc.toNat) (s.memRead (s.pc.toNat + 1)))

/-- Step 2, Pre-advance (R122), with the report as the cycle begins it: (NONE, iaddr, iw, 0) (R120). -/
def State.preAdvance (s : State) (iw : Word) : State :=
  (s.setReport { code := .noCondition, iaddr := s.pc, word := iw, addr := 0#13 }).setPc (s.pc + 2)

/-- A failed fetch (R121): OUT_OF_BOUNDS with `word` 0 and `addr` 0x1000, PC advanced, nothing else. -/
def State.fetchFailed (s : State) : State := (s.preAdvance 0#16).raise .outOfBounds 0x1000

/-- An UNKNOWN word (R126): the pre-advance stands and UNKNOWN_OPCODE is reported, nothing else. -/
def State.unknownWord (s : State) (iw : Word) : State := (s.preAdvance iw).raise .unknownOpcode 0

/-- The end of every cycle: step 6 (R128), and the count that gives the next cycle its own random byte
(R238, log entry 4). -/
def State.finishCycle (s : State) : State := s.timerTick.setRndCount (s.rndCount + 1)

/-- The state with a word stored where the next fetch reads it, high byte first. A word cannot stand at
0xFFF (R294); PC then goes to the entry point 0x200 first. -/
def State.placeWord (s : State) (iw : Word) : State :=
  let t := if s.pc = 0xFFF#12 then s.setPc 0x200#12 else s
  t.memWriteBytes t.pc.toNat (bytesOfWord iw)

end Sys2Proof.Machine
end

