-- ==== Sys2Proof/Machine/Operands.lean ====
section
/-! DEFINITION. The operand forms. A register operand is `State.reg`, sampled once at the head of a
meaning, before any write (40_cycle.md R125); an immediate is used as it stands (30_encoding.md R94).
What is left are the one addressing mode (20_memory.md R62), the jump and glyph addresses, the key
index, the decimal digits and the key that FX0A takes. -/

namespace Sys2Proof.Machine

/-- The effective address I + k: over the unbounded integers, not reduced (R62, R186). -/
def effectiveAddr (i : Addr) (k : Nat) : Nat := i.toNat + k

/-- BNNN's target: nnn + V0 modulo 4096 (R143). -/
def jumpTarget (nnn : Addr) (a : Byte) : Addr := nnn + a.setWidth 12

/-- FX1E's index: I + Vx modulo 4096 (R181). -/
def indexSum (i : Addr) (a : Byte) : Addr := i + a.setWidth 12

/-- I after FX55 or FX65: I + x + 1 modulo 4096 (R184, R185). -/
def indexAfterBlock (i : Addr) (x : Nibble) : Addr := i + x.setWidth 12 + 1

/-- FX29's address: five times the whole of Vx, not masked (R182). -/
def glyphAddr (a : Byte) : Addr := 5 * a.setWidth 12

/-- The key EX9E and EXA1 test: Vx AND 0xF (R210). -/
def keyIndex (a : Byte) : Nibble := (a &&& 0x0F#8).setWidth 4

/-- The three decimal digits of a byte: hundreds, tens, ones (R183). -/
def decimalDigits (a : Byte) : List Byte :=
  [BitVec.ofNat 8 (a.toNat / 100), BitVec.ofNat 8 (a.toNat / 10 % 10), BitVec.ofNat 8 (a.toNat % 10)]

/-- The values of V0 to Vx (R184). -/
def regsUpTo (v : Vector Byte 16) (x : Nibble) : List Byte := v.toList.take (x.toNat + 1)

/-- The least k with KEY[k] = 1, if some key is down (R212). -/
def firstKeyDown (key : Vector Bool 16) : Option Nat := key.toList.findIdx? (fun d => d)

end Sys2Proof.Machine
end

