-- ==== Sys2Proof/Machine/Flags.lean ====
section
/-! DEFINITION. The flag computations, all from sampled operands (43_alu.md R160, R167 to R171;
44_index_memory.md R181; 45_display.md R202), and the two orders in which a result and a flag are
written when the result's register may be VF (40_cycle.md R125). -/

namespace Sys2Proof.Machine

/-- A flag as VF holds it: 0 or 1 (R24). -/
def flagByte (f : Bool) : Byte := if f then 0x01#8 else 0x00#8

/-- 8XY4's carry: the true sum is above 255 (R167). -/
def carryOut (a b : Byte) : Bool := decide (255 < a.toNat + b.toNat)

/-- The no-borrow flag of 8XY5 (with a = Vx, b = Vy) and 8XY7 (the other way round): the minuend is
strictly greater (R168, R170). -/
def noBorrow (a b : Byte) : Bool := decide (b.toNat < a.toNat)

/-- The bit 8XY6 shifts out: bit 0 (R169). -/
def shiftedOutRight (a : Byte) : Bool := a.getLsbD 0

/-- The bit 8XYE shifts out: bit 7 (R171). -/
def shiftedOutLeft (a : Byte) : Bool := a.getLsbD 7

/-- FX1E's flag: the unreduced sum passes 0xFFF (R181). -/
def indexOverflow (i : Addr) (a : Byte) : Bool := decide (0xFFF < i.toNat + a.toNat)

/-- First the flag to VF, then the result to Vx: with x = F the result remains (R125; 8XY5, 8XY6, 8XY7,
8XYE). -/
def State.flagThenResult (s : State) (x : Nibble) (result : Byte) (f : Bool) : State :=
  (s.setReg vF (flagByte f)).setReg x result

/-- First the result to Vx, then the flag to VF: with x = F the flag remains (R125; 8XY4). -/
def State.resultThenFlag (s : State) (x : Nibble) (result : Byte) (f : Bool) : State :=
  (s.setReg x result).setReg vF (flagByte f)

end Sys2Proof.Machine
end

