-- ==== Sys2Proof/Machine/Alu.lean ====
section
/-! DEFINITION. Load, arithmetic, logic, shift and random: 6XKK, 7XKK, 8XY0 to 8XY7, 8XYE, CXKK
(43_alu.md). Byte arithmetic is modulo 256 (R160). -/

namespace Sys2Proof.Machine

/-- 6XKK (R161). -/
def execLdImm (x : Nibble) (kk : Byte) (s : State) : Host.Outcome State Fault Refusal :=
  .next (s.setReg x kk)

/-- 7XKK (R162): no flag. -/
def execAddImm (x : Nibble) (kk : Byte) (s : State) : Host.Outcome State Fault Refusal :=
  .next (s.setReg x (s.reg x + kk))

/-- 8XY0 (R163). -/
def execLdReg (x y : Nibble) (s : State) : Host.Outcome State Fault Refusal :=
  .next (s.setReg x (s.reg y))

/-- 8XY1 (R164): VF is not written. -/
def execOrReg (x y : Nibble) (s : State) : Host.Outcome State Fault Refusal :=
  .next (s.setReg x (s.reg x ||| s.reg y))

/-- 8XY2 (R165): VF is not written. -/
def execAndReg (x y : Nibble) (s : State) : Host.Outcome State Fault Refusal :=
  .next (s.setReg x (s.reg x &&& s.reg y))

/-- 8XY3 (R166): VF is not written. -/
def execXorReg (x y : Nibble) (s : State) : Host.Outcome State Fault Refusal :=
  .next (s.setReg x (s.reg x ^^^ s.reg y))

/-- 8XY4 (R167): the sum first, then the carry. -/
def execAddReg (x y : Nibble) (s : State) : Host.Outcome State Fault Refusal :=
  .next (s.resultThenFlag x (s.reg x + s.reg y) (carryOut (s.reg x) (s.reg y)))

/-- 8XY5 (R168): the flag first, then the difference. -/
def execSubReg (x y : Nibble) (s : State) : Host.Outcome State Fault Refusal :=
  .next (s.flagThenResult x (s.reg x - s.reg y) (noBorrow (s.reg x) (s.reg y)))

/-- 8XY6 (R169): the flag first, then the shifted value; Vy is neither read nor written. -/
def execShr (x _y : Nibble) (s : State) : Host.Outcome State Fault Refusal :=
  .next (s.flagThenResult x (s.reg x >>> 1) (shiftedOutRight (s.reg x)))

/-- 8XY7 (R170): the flag first, then the difference the other way round. -/
def execSubnReg (x y : Nibble) (s : State) : Host.Outcome State Fault Refusal :=
  .next (s.flagThenResult x (s.reg y - s.reg x) (noBorrow (s.reg y) (s.reg x)))

/-- 8XYE (R171): the flag first, then the shifted value; Vy is neither read nor written. -/
def execShl (x _y : Nibble) (s : State) : Host.Outcome State Fault Refusal :=
  .next (s.flagThenResult x (s.reg x <<< 1) (shiftedOutLeft (s.reg x)))

/-- CXKK for a given random byte (R172). -/
def State.withRandom (s : State) (x : Nibble) (kk rnd : Byte) : State := s.setReg x (rnd &&& kk)

/-- CXKK (R172): the random byte is the free input of this cycle (R238, log entry 4). -/
def execRnd (x : Nibble) (kk : Byte) (s : State) : Host.Outcome State Fault Refusal :=
  .next (s.withRandom x kk (Config.rndInput s.rndCount))

end Sys2Proof.Machine
end

