-- ==== Sys2Proof/Machine/Display.lean ====
section
/-! DEFINITION. The instructions that write the display buffer: 00E0, DXYN (45_display.md). -/

namespace Sys2Proof.Machine

/-- 00E0 (R201): DRAW is set even when every cell was 0. -/
def execCls (s : State) : Host.Outcome State Fault Refusal :=
  .next ((s.setDisp Display.clear).setDraw true)

/-- What DXYN does once its sprite range is in bounds (R202): the rows are drawn at the unreduced
position (Vx, Vy), then VF takes the collision and DRAW is set. -/
def State.drawSprite (s : State) (x y n : Nibble) : State :=
  let c := Canvas.drawRows { disp := s.disp, collision := false }
    (s.memReadBytes (effectiveAddr s.i 0) n.toNat) (s.reg x).toNat (s.reg y).toNat
  ((s.setDisp c.disp).setReg vF (flagByte c.collision)).setDraw true

/-- DXYN (R202): with n = 0 the sprite range is empty and nothing is checked (R63, R204 d). -/
def execDrw (x y n : Nibble) (s : State) : Host.Outcome State Fault Refusal :=
  if n = 0x0#4 then .next (s.drawSprite x y n)
  else .next (s.ifInBounds (effectiveAddr s.i (n.toNat - 1)) (s.drawSprite x y n))

end Sys2Proof.Machine
end

