-- ==== Sys2Proof/Machine/Flow.lean ====
section
/-! DEFINITION. Jumps, call and return: 00EE, 1NNN, 2NNN, BNNN (41_flow.md). The PC they see is the
pre-advanced one (40_cycle.md R122). -/

namespace Sys2Proof.Machine

/-- 00EE (R140): an empty stack raises StackUnderflow; else PC takes the popped value. -/
def execRet (s : State) : Host.Outcome State Fault Refusal :=
  match s.top with
  | none => .next (s.raise .stackUnderflow 0)
  | some a => .next (s.dropTop.setPc a)

/-- 1NNN (R141). -/
def execJp (nnn : Addr) (s : State) : Host.Outcome State Fault Refusal :=
  .next (s.setPc nnn)

/-- 2NNN (R142): a full stack raises StackOverflow; else the pre-advanced PC is pushed. -/
def execCall (nnn : Addr) (s : State) : Host.Outcome State Fault Refusal :=
  if s.stackFull then .next (s.raise .stackOverflow 0) else .next ((s.push s.pc).setPc nnn)

/-- BNNN (R143): the offset register is always V0. -/
def execJpV0 (nnn : Addr) (s : State) : Host.Outcome State Fault Refusal :=
  .next (s.setPc (jumpTarget nnn (s.reg 0x0#4)))

end Sys2Proof.Machine
end

