-- ==== Sys2Proof/Machine/IndexMemory.lean ====
section
/-! DEFINITION. The index register and memory transfer: ANNN, FX1E, FX29, FX33, FX55, FX65
(44_index_memory.md). -/

namespace Sys2Proof.Machine

/-- ANNN (R180). -/
def execLdI (nnn : Addr) (s : State) : Host.Outcome State Fault Refusal :=
  .next (s.setI nnn)

/-- FX1E (R181): I first, then the overflow flag, both from the sampled I and Vx. -/
def execAddI (x : Nibble) (s : State) : Host.Outcome State Fault Refusal :=
  .next ((s.setI (indexSum s.i (s.reg x))).setReg vF (flagByte (indexOverflow s.i (s.reg x))))

/-- FX29 (R182). -/
def execLdGlyph (x : Nibble) (s : State) : Host.Outcome State Fault Refusal :=
  .next (s.setI (glyphAddr (s.reg x)))

/-- FX33 (R183): the range I to I + 2 is checked before any effect; I is not changed. -/
def execStoreBcd (x : Nibble) (s : State) : Host.Outcome State Fault Refusal :=
  .next (s.ifInBounds (effectiveAddr s.i 2)
    (s.memWriteBytes (effectiveAddr s.i 0) (decimalDigits (s.reg x))))

/-- FX55 (R184): the range I to I + x is checked before any effect; I moves past the block. -/
def execStoreRegs (x : Nibble) (s : State) : Host.Outcome State Fault Refusal :=
  .next (s.ifInBounds (effectiveAddr s.i x.toNat)
    ((s.memWriteBytes (effectiveAddr s.i 0) (regsUpTo s.v x)).setI (indexAfterBlock s.i x)))

/-- FX65 (R185): the range I to I + x is checked before any effect; I moves past the block. -/
def execLoadRegs (x : Nibble) (s : State) : Host.Outcome State Fault Refusal :=
  .next (s.ifInBounds (effectiveAddr s.i x.toNat)
    ((s.setV (loadRegsFrom 0 (s.memReadBytes (effectiveAddr s.i 0) (x.toNat + 1)) s.v)).setI
      (indexAfterBlock s.i x)))

end Sys2Proof.Machine
end

