-- ==== Sys2Proof/Machine/KeypadTimers.lean ====
section
/-! DEFINITION. The keypad and timer instructions: EX9E, EXA1, FX0A, FX07, FX15, FX18
(46_keypad_timers.md). The timers' decrement is no part of them: it is step 6 of the cycle (R128). -/

namespace Sys2Proof.Machine

/-- EX9E (R210). -/
def execSkp (x : Nibble) (s : State) : Host.Outcome State Fault Refusal :=
  .next (s.skipIf (s.keyDown (keyIndex (s.reg x))))

/-- EXA1 (R211). -/
def execSknp (x : Nibble) (s : State) : Host.Outcome State Fault Refusal :=
  .next (s.skipIf (!s.keyDown (keyIndex (s.reg x))))

/-- FX0A (R212): with every key up PC is rewound, so that the same word is fetched next cycle (R129);
else Vx takes the least key that is down. -/
def execWaitKey (x : Nibble) (s : State) : Host.Outcome State Fault Refusal :=
  match firstKeyDown s.key with
  | none => .next (s.setPc (s.pc - 2))
  | some k => .next (s.setReg x (BitVec.ofNat 8 k))

/-- FX07 (R213): DT as it stands before this cycle's tick. -/
def execLdFromDt (x : Nibble) (s : State) : Host.Outcome State Fault Refusal :=
  .next (s.setReg x s.dt)

/-- FX15 (R214). -/
def execLdToDt (x : Nibble) (s : State) : Host.Outcome State Fault Refusal :=
  .next (s.setDt (s.reg x))

/-- FX18 (R215). -/
def execLdToSt (x : Nibble) (s : State) : Host.Outcome State Fault Refusal :=
  .next (s.setSt (s.reg x))

end Sys2Proof.Machine
end

