-- ==== Sys2Proof/Machine/Step.lean ====
section
/-! DEFINITION. One machine cycle, `Cycle(rnd)` (40_cycle.md R120): fetch, pre-advance, decode, dispatch,
execute, tick. -/

namespace Sys2Proof.Machine

/-- One machine cycle (R120). The random input of the cycle is `Config.rndInput s.rndCount`. -/
def step (s : State) : Host.Outcome State Fault Refusal :=
  match s.fetchWord with
  | none => .next s.fetchFailed.finishCycle
  | some iw =>
    match decodeWord iw with
    | .error _ => .next (s.unknownWord iw).finishCycle
    | .ok i =>
      match exec i (s.preAdvance iw) with
      | .next t => .next t.finishCycle
      | .fault f => .fault f
      | .refused r => .refused r

/-- The instruction whose bits are `w`, numbered as spec/opcode_table.json numbers them (bits at or above
`nbits` are 0), stored where `step` fetches its next instruction. -/
def State.withFetchWord (s : State) (nbits w : Nat) : State :=
  s.placeWord (BitVec.ofNat 16 (w % 2 ^ nbits))

end Sys2Proof.Machine
end

