-- ==== Sys2Proof/Machine/HostOps.lean ====
section
/-! DEFINITION. The other agent: the host, and what it can do to the core between two machine cycles
(47_host_operations.md). Each operation is atomic and all of them are totally ordered with the cycles
(R240), so a run is a list of operations. -/

namespace Sys2Proof.Machine

/-- Why an operation fails. It is an action failure handed back to the host, no cycle report: it changes
no state and sets no ERR bit (R231, R256). -/
inductive HostFailure where
  /-- `loadProgram` with more than 3584 bytes (R231, R256). -/
  | programTooLarge
  /-- `setKeyState` with a key index above 15 (R234). -/
  | keyOutOfBounds
deriving DecidableEq, Repr

/-- The operations of R230 to R239. -/
inductive HostCall where
  /-- The reset of the core (R230). -/
  | resetCore
  /-- `loadProgram(bytes)` (R231). -/
  | loadProgram (bytes : List Byte)
  /-- `runCycle()` (R233). -/
  | runCycle
  /-- `setKeyState(k, d)` (R234). -/
  | setKeyState (k : Nat) (d : Bool)
  /-- `getDisplayBuffer()` (R235). -/
  | getDisplayBuffer
  /-- `consumeDirtyFlag()` (R236). -/
  | consumeDirtyFlag
  /-- `getSoundTimerValue()` (R237). -/
  | getSoundTimerValue
  /-- Reading ERR (R239). -/
  | readErr
deriving DecidableEq, Repr

/-- What an operation hands back. -/
inductive HostReply where
  /-- Nothing, or plain success. -/
  | done
  /-- The operation failed and changed nothing. -/
  | failed (f : HostFailure)
  /-- The report of the cycle that ran. -/
  | report (r : Report)
  /-- The 2048 cells, as 32 rows of 64. -/
  | display (d : Display)
  /-- The old value of DRAW. -/
  | dirty (b : Bool)
  /-- The value of ST. -/
  | sound (t : Byte)
  /-- The value of ERR. -/
  | status (e : BitVec 4)
deriving DecidableEq, Repr

/-- The reset transition (R230, R280): every element of the spec takes its reset value whatever it was.
The parameters stay (R38), and the count of random bytes goes on, so that nothing relates the bytes
before a reset to those after it (log entry 4). -/
def State.resetCore (s : State) : State := (State.resetWith s.cfg).setRndCount s.rndCount

/-- `loadProgram` (R231): all or nothing, and only MEM[0x200 ..] changes. -/
def State.loadProgram (s : State) (bytes : List Byte) : Except HostFailure State :=
  if 3584 < bytes.length then .error .programTooLarge else .ok (s.memWriteBytes 0x200 bytes)

/-- `setKeyState` (R234): an index above 15 is refused. -/
def State.setKeyState (s : State) (k : Nat) (d : Bool) : Except HostFailure State :=
  if h : k < 16 then .ok (s.setKey (s.key.set k d h)) else .error .keyOutOfBounds

/-- `consumeDirtyFlag` (R236): the old DRAW, and DRAW cleared. -/
def State.consumeDirtyFlag (s : State) : Bool × State := (s.draw, s.setDraw false)

/-- An operation that may fail: on failure the state stays. -/
def State.orFail (s : State) : Except HostFailure State → State × HostReply
  | .ok t => (t, .done)
  | .error f => (s, .failed f)

/-- One operation of the host: the next state and what is handed back. Only `runCycle` can be a step of
the core. -/
def hostCall (c : HostCall) (s : State) : Host.Outcome (State × HostReply) Fault Refusal :=
  match c with
  | .resetCore => .next (s.resetCore, .done)
  | .loadProgram bytes => .next (s.orFail (s.loadProgram bytes))
  | .runCycle =>
    match step s with
    | .next t => .next (t, .report t.report)
    | .fault f => .fault f
    | .refused r => .refused r
  | .setKeyState k d => .next (s.orFail (s.setKeyState k d))
  | .getDisplayBuffer => .next (s, .display s.disp)
  | .consumeDirtyFlag => .next (s.consumeDirtyFlag.2, .dirty s.consumeDirtyFlag.1)
  | .getSoundTimerValue => .next (s, .sound s.st)
  | .readErr => .next (s, .status s.err)

/-- A sequence of operations in the host's order (R240), stopping at the first fault or refusal. -/
def hostRun : List HostCall → State → Host.Outcome State Fault Refusal
  | [], s => .next s
  | c :: cs, s =>
    match hostCall c s with
    | .next (t, _) => hostRun cs t
    | .fault f => .fault f
    | .refused r => .refused r

end Sys2Proof.Machine
end

