-- ==== Sys2Proof/Safety.lean ====
section
/-! DEFINITION. The terms claims are stated in: the range invariant (10_state.md R36), a clean run
(60_exceptions.md R258), what a cycle executes, the frames, and the spec's own whole-machine tables
(which instruction writes what, PC at the end of a cycle, the report of a cycle, the cells a sprite
covers). The machine uses none of them. -/

namespace Sys2Proof.Machine

/-! ## Good states and clean runs -/

/-- The range invariant of R36, as far as the types do not already say it: memory is in its canonical form
(so it lists no address above 0xFFF), TDIV is below the timer ratio, and the stack holds at most
`STACK_DEPTH` entries. -/
structure Inv (s : State) : Prop where
  /-- MEM is in canonical form. -/
  memory : Memory.wf s.cfg.font s.mem = true
  /-- TDIV is below `CYCLES_PER_TIMER_TICK`. -/
  divider : s.tdiv < s.cfg.cyclesPerTimerTick
  /-- The stack length is at most `STACK_DEPTH`. -/
  depth : ∀ d, s.cfg.stackDepth = some d → s.stack.length ≤ d

/-- No condition was ever reported (R33, R258): the premise and the postcondition of a claim that a
program runs correctly. -/
abbrev NeverReported (s : State) : Prop := s.err = 0#4

/-- The state without the diagnostic channel: ERR and the last report blanked. No instruction reads them
(R33, R34). -/
def State.withoutDiagnostics (s : State) : State :=
  (s.setErr 0#4).setReport { code := .noCondition, iaddr := 0#12, word := 0#16, addr := 0#13 }

/-! ## What a cycle executes -/

/-- The next cycle fetches a word that decodes to `i` (R121, R124). -/
def Executes (s : State) (i : Instr) : Prop :=
  ∃ iw, s.fetchWord = some iw ∧ decodeWord iw = .ok i

/-- `k` machine cycles one after another, the host doing nothing in between (R233). -/
def cycles (k : Nat) (s : State) : Host.Outcome State Fault Refusal :=
  hostRun (List.replicate k .runCycle) s

/-! ## Frames -/

/-- Every byte of memory reads in `t` as it does in `s`. -/
def SameMemory (s t : State) : Prop := ∀ a, t.memRead a = s.memRead a

/-- From `s` to `t` only general registers in `w` may have changed: the other registers, every byte of
memory and every other field of the state are as before. -/
structure OnlyRegs (w : List Nibble) (s t : State) : Prop where
  regs : ∀ z, z ∉ w → t.reg z = s.reg z
  memory : SameMemory s t
  rest : t = { s with v := t.v }

/-- From `s` to `t` only PC may have changed. -/
structure OnlyPc (s t : State) : Prop where
  memory : SameMemory s t
  rest : t = { s with pc := t.pc }

/-! ## Which instruction writes what (the table of R20, and R24, R186) -/

/-- The instructions that change I: ANNN, FX1E, FX29, FX55, FX65 (R186). -/
def Instr.writesIndex : Instr → Bool
  | .ldI _ | .addI _ | .ldGlyph _ | .storeRegs _ | .loadRegs _ => true
  | _ => false

/-- The instructions that change STACK: 2NNN and 00EE (R25). -/
def Instr.writesStack : Instr → Bool
  | .call _ | .ret => true
  | _ => false

/-- The instructions that change DISP and set DRAW: 00E0 and DXYN (R28, R29). -/
def Instr.writesDisplay : Instr → Bool
  | .cls | .drw _ _ _ => true
  | _ => false

/-- The instructions that write memory: FX33 and FX55 (R20, R60). -/
def Instr.writesMemory : Instr → Bool
  | .storeBcd _ | .storeRegs _ => true
  | _ => false

/-- The instructions that write VF as a flag: 8XY4, 8XY5, 8XY6, 8XY7, 8XYE, FX1E, DXYN (R24). -/
def Instr.writesFlag : Instr → Bool
  | .addReg _ _ | .subReg _ _ | .shr _ _ | .subnReg _ _ | .shl _ _ | .addI _ | .drw _ _ _ => true
  | _ => false

/-- Register `z` is one the instruction writes as an operand: Vx of the instructions that have a
destination register, V0 to Vx for FX65 (R20). -/
def Instr.writesOperand (z : Nibble) : Instr → Bool
  | .ldImm x _ | .addImm x _ | .ldReg x _ | .orReg x _ | .andReg x _ | .xorReg x _ | .addReg x _
  | .subReg x _ | .shr x _ | .subnReg x _ | .shl x _ | .rnd x _ | .ldFromDt x | .waitKey x => z == x
  | .loadRegs x => decide (z.toNat ≤ x.toNat)
  | _ => false

/-! ## PC at the end of a cycle (R131) -/

/-- The last column of R131's table for an executed instruction; `s` is the state the cycle began in. -/
def pcAfterInstr (s : State) : Instr → Addr
  | .ret => match s.stack.getLast? with
    | none => s.pc + 2
    | some a => a
  | .jp nnn => nnn
  | .call nnn => if s.cfg.stackDepth = some s.stack.length then s.pc + 2 else nnn
  | .jpV0 nnn => BitVec.ofNat 12 (nnn.toNat + (s.reg 0#4).toNat)
  | .seImm x kk => if s.reg x = kk then s.pc + 2 + 2 else s.pc + 2
  | .sneImm x kk => if s.reg x = kk then s.pc + 2 else s.pc + 2 + 2
  | .seReg x y _ => if s.reg x = s.reg y then s.pc + 2 + 2 else s.pc + 2
  | .sneReg x y _ => if s.reg x = s.reg y then s.pc + 2 else s.pc + 2 + 2
  | .skp x => if s.keyDown (BitVec.ofNat 4 (s.reg x).toNat) then s.pc + 2 + 2 else s.pc + 2
  | .sknp x => if s.keyDown (BitVec.ofNat 4 (s.reg x).toNat) then s.pc + 2 else s.pc + 2 + 2
  | .waitKey _ => if ∀ k : Nibble, s.keyDown k = false then s.pc else s.pc + 2
  | _ => s.pc + 2

/-- PC at the end of a cycle, for every case of R131. -/
def pcAfterCycle (s : State) : Addr :=
  match s.fetchWord with
  | none => s.pc + 2
  | some iw => match decodeWord iw with
    | .error _ => s.pc + 2
    | .ok i => pcAfterInstr s i

/-! ## The report of a cycle (R250, R251, R254, R258) -/

/-- The highest effective address an instruction needs; `none` when it accesses no memory (R63, R254). -/
def highestAddr (s : State) : Instr → Option Nat
  | .drw _ _ n => if n = 0#4 then none else some (s.i.toNat + n.toNat - 1)
  | .storeBcd _ => some (s.i.toNat + 2)
  | .storeRegs x => some (s.i.toNat + x.toNat)
  | .loadRegs x => some (s.i.toNat + x.toNat)
  | _ => none

/-- The one condition a decoded instruction meets, with its address (R250, R258). -/
def conditionOf (s : State) (i : Instr) : Condition × BitVec 13 :=
  match i with
  | .ret => if s.stack = [] then (.stackUnderflow, 0#13) else (.noCondition, 0#13)
  | .call _ =>
    if s.cfg.stackDepth = some s.stack.length then (.stackOverflow, 0#13) else (.noCondition, 0#13)
  | i => match highestAddr s i with
    | none => (.noCondition, 0#13)
    | some h => if 0xFFF < h then (.outOfBounds, BitVec.ofNat 13 h) else (.noCondition, 0#13)

/-- The report of the cycle that begins in `s`: fetch range first, then decode, then the instruction's own
condition (R258). -/
def reportOfCycle (s : State) : Report :=
  match s.fetchWord with
  | none => { code := .outOfBounds, iaddr := s.pc, word := 0#16, addr := 0x1000#13 }
  | some iw => match decodeWord iw with
    | .error _ => { code := .unknownOpcode, iaddr := s.pc, word := iw, addr := 0#13 }
    | .ok i =>
      { code := (conditionOf s i).1, iaddr := s.pc, word := iw, addr := (conditionOf s i).2 }

/-! ## The cells a sprite covers (R202, R203) -/

/-- A 1 bit of the sprite that DXYN draws lands on column `tx`, row `ty`: row r of the sprite is the byte at
I + r and lands on row Vy + r; column offset c takes bit 7 - c and lands on column Vx + c. -/
def spriteCovers (s : State) (x y n : Nibble) (tx ty : Nat) : Bool :=
  decide ((s.reg x).toNat ≤ tx) && decide (tx < (s.reg x).toNat + 8) &&
  decide ((s.reg y).toNat ≤ ty) && decide (ty < (s.reg y).toNat + n.toNat) &&
  (s.memRead (effectiveAddr s.i (ty - (s.reg y).toNat))).getLsbD (7 - (tx - (s.reg x).toNat))

end Sys2Proof.Machine
end

