-- ==== Sys2Proof/Certificates/Slice0/Obligations.lean ====
section
/-! DEFINITION. The statements for the provers. Each docstring names the rules of spec/ it formalises. In a
statement about `exec` the state is the one the Execute step sees: PC is already pre-advanced
(40_cycle.md R122, R125). -/

open Sys2Proof Sys2Proof.Machine

/-! ## Reset and the range invariant -/

/-- The table of R37, element by element, for every choice of the parameters. The values of STACK, DISP, DRAW,
KEY, DT, ST, TDIV and ERR are the spec's decision D18 (log entry 6). -/
def Obligations.ResetGivesTabledValues : Prop :=
  ∀ cfg : Config,
    (∀ g b : Nat, (hg : g < 16) → (hb : b < 5) →
      (State.resetWith cfg).memRead (5 * g + b) = cfg.font[g][b]) ∧
    (∀ a, 80 ≤ a → (State.resetWith cfg).memRead a = 0#8) ∧
    (∀ z, (State.resetWith cfg).reg z = 0#8) ∧
    (State.resetWith cfg).i = 0#12 ∧ (State.resetWith cfg).pc = 0x200#12 ∧
    (State.resetWith cfg).stack = [] ∧
    (∀ p, (State.resetWith cfg).disp.pixel p = false) ∧
    (State.resetWith cfg).draw = false ∧
    (∀ k, (State.resetWith cfg).keyDown k = false) ∧
    (State.resetWith cfg).dt = 0#8 ∧ (State.resetWith cfg).st = 0#8 ∧
    (State.resetWith cfg).tdiv = 0 ∧ (State.resetWith cfg).err = 0#4

/-- The reset transition of R230 and R280 depends on nothing of the old state: but for the parameters (R38) and
the model's own count of random bytes (log entry 4), two states reset to the same one. -/
def Obligations.HostResetIgnoresOldState : Prop :=
  ∀ s t : State, s.cfg = t.cfg →
    hostCall .resetCore s = .next (s.resetCore, .done) ∧
    s.resetCore = { State.resetWith s.cfg with rndCount := s.rndCount } ∧
    s.resetCore.setRndCount 0 = t.resetCore.setRndCount 0

/-- R36 holds after reset, whenever the timer ratio is at least 1 (R7). -/
def Obligations.ResetMeetsRangeInvariant : Prop :=
  Inv State.reset ∧ ∀ cfg : Config, cfg.Wf → Inv (State.resetWith cfg)

/-- R36: from every state in range, a machine cycle leads to a state in range. -/
def Obligations.StepKeepsRangeInvariant : Prop :=
  ∀ s t : State, Inv s → step s = .next t → Inv t

/-- R36: from every state in range, every operation of the host, a failed one too, leads to a state in range. -/
def Obligations.HostCallsKeepRangeInvariant : Prop :=
  ∀ (c : HostCall) (s t : State) (r : HostReply), Inv s → hostCall c s = .next (t, r) → Inv t

/-! ## The machine cycle -/

/-- R120: a cycle always yields one next state; a fetch out of range reports and advances; a word that decodes
to no instruction reports and advances; a word that decodes to `i` runs `i` on the pre-advanced state; the
timers tick in every case. PC modulo 4096 is the spec's decision D2, the failed fetch D3, the tick of a reporting
cycle D10, the report and ERR D11. -/
def Obligations.CycleRunsDecodedInstruction : Prop :=
  ∀ s : State,
    (∃ t, step s = .next t) ∧
    (0xFFF < s.pc.toNat + 1 →
      step s = .next (State.finishCycle { s with
        pc := s.pc + 2
        report := { code := .outOfBounds, iaddr := s.pc, word := 0#16, addr := 0x1000#13 }
        err := s.err ||| 0b0100#4 })) ∧
    (∀ iw, s.pc.toNat + 1 ≤ 0xFFF →
      iw = wordOfBytes (s.memRead s.pc.toNat) (s.memRead (s.pc.toNat + 1)) →
      (∀ e, decodeWord iw = .error e →
        step s = .next (State.finishCycle { s with
          pc := s.pc + 2
          report := { code := .unknownOpcode, iaddr := s.pc, word := iw, addr := 0#13 }
          err := s.err ||| 0b0001#4 })) ∧
      (∀ i, decodeWord iw = .ok i →
        step s =
          match exec i { s with
            pc := s.pc + 2
            report := { code := .noCondition, iaddr := s.pc, word := iw, addr := 0#13 } } with
          | .next t => .next t.finishCycle
          | .fault f => .fault f
          | .refused r => .refused r))

/-- R126 and R252: an UNKNOWN word leaves every element of the state as it was but PC, which is advanced by 2,
ERR bit 0, the timers with their divider, and the report (UNKNOWN_OPCODE, iaddr, iw, 0). The report and ERR are the
spec's decision D11, PC modulo 4096 D2; the draw count is the model's own (log entry 4). -/
def Obligations.UnknownWordIsReportedNoOp : Prop :=
  ∀ (s : State) (iw : Word) (e : Reject), s.fetchWord = some iw → decodeWord iw = .error e →
    ∃ t, step s = .next t ∧
      t.pc = s.pc + 2 ∧ t.err = s.err ||| 0b0001#4 ∧
      t.report = { code := .unknownOpcode, iaddr := s.pc, word := iw, addr := 0#13 } ∧
      t.tdiv = s.timerTick.tdiv ∧ t.dt = s.timerTick.dt ∧ t.st = s.timerTick.st ∧
      SameMemory s t ∧
      t = { s with pc := t.pc, err := t.err, report := t.report, tdiv := t.tdiv, dt := t.dt,
                   st := t.st, rndCount := s.rndCount + 1 }

/-- R121 at PC = 0xFFF (the spec's decision D3): nothing is decoded or executed, OUT_OF_BOUNDS is reported with
word 0 and address 0x1000, PC becomes 0x001 and the timers tick. -/
def Obligations.FetchAtTopReportsAndGoesOn : Prop :=
  ∀ s : State, s.pc = 0xFFF#12 →
    ∃ t, step s = .next t ∧ t.pc = 0x001#12 ∧ t.err = s.err ||| 0b0100#4 ∧
      t.report = { code := .outOfBounds, iaddr := 0xFFF#12, word := 0#16, addr := 0x1000#13 } ∧
      t.dt = s.timerTick.dt ∧ t.st = s.timerTick.st ∧
      t = { s with pc := t.pc, err := t.err, report := t.report, tdiv := t.tdiv, dt := t.dt,
                   st := t.st, rndCount := s.rndCount + 1 }

/-- R130 and R240: whatever operations the host performs, in whatever order (the spec's decision D22), the machine
answers; nothing stops it. -/
def Obligations.HostRunAlwaysAnswers : Prop :=
  ∀ (cs : List HostCall) (s : State), ∃ t, hostRun cs s = .next t

/-- R131: PC at the end of a cycle, in every case of its table. Its reduction modulo 4096 is the spec's decision D2,
the failed fetch D3, the advance of a cycle that reports D7 to D10. -/
def Obligations.PcAtEndOfCycle : Prop :=
  ∀ s : State, ∃ t, step s = .next t ∧ t.pc = pcAfterCycle s

/-- R250, R251, R254 and R258: the report of every cycle, and ERR, which gains the report's bit and loses none
(R33). The codes, the bits and the order of the checks are the spec's decision D11; the fetch at 0xFFF D3, the stack
conditions D7 and D8, the whole-range bounds check D9. -/
def Obligations.ReportAndErrOfEveryCycle : Prop :=
  ∀ s : State, ∃ t, step s = .next t ∧ t.report = reportOfCycle s ∧
    t.err = s.err ||| (reportOfCycle s).code.errBit ∧ t.err &&& s.err = s.err

/-- R127 and R259: a cycle that reports a condition has no effect but the advance of PC, the report, the ERR bit
and the tick (the spec's decisions D9 and D10). -/
def Obligations.ReportedConditionHasNoOtherEffect : Prop :=
  ∀ s t : State, step s = .next t → t.report.code ≠ .noCondition →
    t = State.finishCycle { s with
      pc := s.pc + 2, report := t.report, err := s.err ||| t.report.code.errBit }

/-- R33 and R34 (the spec's decision D11): ERR and the report have no effect on execution: two states that differ in
them alone step, with the same random byte, to states that differ in them alone. That both cycles have the same random
byte is no rule of the spec, where nothing relates two of them (R238): it is the model's choice that the byte is a
function of the draw count, which is equal in the two states (log entry 4). -/
def Obligations.DiagnosticsDoNotFeedBack : Prop :=
  ∀ s t : State, s.withoutDiagnostics = t.withoutDiagnostics →
    ∃ s' t', step s = .next s' ∧ step t = .next t' ∧
      s'.withoutDiagnostics = t'.withoutDiagnostics

/-- R132: the random byte (the spec's decision D17) is used by CXKK only. In a cycle that executes anything else,
drawing another byte changes nothing but the model's own count (log entry 4). -/
def Obligations.RandomByteUsedByRndOnly : Prop :=
  ∀ (s : State) (n : Nat), (∀ x kk, ¬ Executes s (.rnd x kk)) →
    ∃ t, step s = .next t ∧ step (s.setRndCount n) = .next (t.setRndCount (n + 1))

/-! ## Decoding and encoding -/

/-- Decoding the word of any instruction gives the instruction back, every operand at every value, the ignored
bits included (R93 to R100; that 5XY0 and 9XY0 ignore their low nibble is the spec's decision D5; that a term keeps
the ignored bits is the model's choice, log entry 11); so does decoding its bytes, whatever follows them (R65, R90). -/
def Obligations.DecodeOfEncodeIsIdentity : Prop :=
  ∀ i : Instr, decodeWord (encode i) = .ok i ∧
    ∀ rest, decode (encodeBytes i ++ rest) = .ok (i, rest)

/-- No two words decode to one term of `Instr`: the term a word decodes to encodes to that word. It holds by the model's
choice that a term keeps the don't-care bits (log entry 11), and is no rule of the spec: there the words 5XY0 to 5XYF
are one instruction, and so are 9XY0 to 9XYF and the sixteen words of 8XY6 or 8XYE that differ in y alone (R97, the
spec's decision D5; R102). -/
def Obligations.EncodeOfDecodeIsIdentity : Prop :=
  ∀ (iw : Word) (i : Instr), decodeWord iw = .ok i → encode i = iw

/-- R100: a word decodes to an instruction of a row exactly when it selects that row; so the rows do not
overlap, and a word that selects no row is UNKNOWN. The masks of family 0 are the spec's decision D4, those of
families 5 and 9 D5. -/
def Obligations.OpcodeMapSelectsOneRow : Prop :=
  (∀ (iw : Word) (i : Instr), decodeWord iw = .ok i → i.row.selects iw = true) ∧
  (∀ (iw : Word) (i : Instr), i.row.selects iw = true →
    ∃ j, decodeWord iw = .ok j ∧ j.row = i.row)

/-- R96, R98, R99 and R101: the words that decode to no instruction are exactly the listed ones. That the whole word
is compared in family 0 is the spec's decision D4. -/
def Obligations.UnknownWordsAreTheListed : Prop :=
  ∀ iw : Word, (∃ e, decodeWord iw = .error e) ↔
    (fieldOp iw = 0x0#4 ∧ iw ≠ 0x00E0#16 ∧ iw ≠ 0x00EE#16) ∨
    (fieldOp iw = 0x8#4 ∧ fieldN iw ∈ [0x8#4, 0x9#4, 0xA#4, 0xB#4, 0xC#4, 0xD#4, 0xF#4]) ∨
    (fieldOp iw = 0xE#4 ∧ fieldKk iw ∉ [0x9E#8, 0xA1#8]) ∨
    (fieldOp iw = 0xF#4 ∧ fieldKk iw ∉
      [0x07#8, 0x0A#8, 0x15#8, 0x18#8, 0x1E#8, 0x29#8, 0x33#8, 0x55#8, 0x65#8])

/-- Words written out from the encodings of R93 and R100, one of each format, and one that is no instruction (the
spec's decision D4). -/
def Obligations.SampleWordsDecode : Prop :=
  decodeWord 0b0000000011100000#16 = .ok .cls ∧
  decodeWord 0b0001101010111100#16 = .ok (.jp 0xABC#12) ∧
  decodeWord 0b0011000100000011#16 = .ok (.seImm 1#4 3#8) ∧
  decodeWord 0b1000000100100101#16 = .ok (.subReg 1#4 2#4) ∧
  decodeWord 0b1101000100100010#16 = .ok (.drw 1#4 2#4 2#4) ∧
  decodeWord 0b1110000110011110#16 = .ok (.skp 1#4) ∧
  decodeWord 0b1111001001010101#16 = .ok (.storeRegs 2#4) ∧
  decodeWord 0b0000000111100000#16 = .error .unknownFamily0

/-- A word placed where the next fetch reads it is the word the next cycle fetches (R65, R121), from every state whose
memory is canonical. Where the placing puts it is the model's choice (log entry 7). -/
def Obligations.PlacedWordIsFetched : Prop :=
  ∀ (s : State) (w : Nat), Memory.wf s.cfg.font s.mem = true → w < 65536 →
    (s.withFetchWord 16 w).fetchWord = some (BitVec.ofNat 16 w)

/-! ## Jumps, call, return and skips -/

/-- R141 and R143: 1NNN and BNNN set PC and nothing else; BNNN's sum with V0 is modulo 4096 and writes no flag. -/
def Obligations.JumpsSetPcOnly : Prop :=
  ∀ (nnn : Addr) (s : State),
    decodeWord (formatA 0x1#4 nnn) = .ok (.jp nnn) ∧
    decodeWord (formatA 0xB#4 nnn) = .ok (.jpV0 nnn) ∧
    (∃ t, exec (.jp nnn) s = .next t ∧ t.pc = nnn ∧ OnlyPc s t) ∧
    (∃ t, exec (.jpV0 nnn) s = .next t ∧
      t.pc.toNat = (nnn.toNat + (s.reg 0#4).toNat) % 4096 ∧ OnlyPc s t)

/-- R142: 2NNN pushes the pre-advanced PC and jumps; with the stack at `STACK_DEPTH` (the spec's decision D7) it
only reports STACK_OVERFLOW (the report and ERR: D11). -/
def Obligations.CallPushesOrReports : Prop :=
  ∀ (nnn : Addr) (s : State),
    decodeWord (formatA 0x2#4 nnn) = .ok (.call nnn) ∧
    ∃ t, exec (.call nnn) s = .next t ∧ SameMemory s t ∧
      t = if s.cfg.stackDepth = some s.stack.length then
            { s with report := { s.report with code := .stackOverflow, addr := 0#13 }
                     err := s.err ||| 0b1000#4 }
          else { s with stack := s.stack ++ [s.pc], pc := nnn }

/-- R140: 00EE pops the top of the stack into PC; with an empty stack (the spec's decision D8) it only reports
STACK_UNDERFLOW (the report and ERR: D11). -/
def Obligations.ReturnPopsOrReports : Prop :=
  decodeWord 0x00EE#16 = .ok .ret ∧
  ∀ (s : State),
    (∀ l a, s.stack = l ++ [a] →
      ∃ t, exec .ret s = .next t ∧ SameMemory s t ∧ t = { s with stack := l, pc := a }) ∧
    (s.stack = [] →
      ∃ t, exec .ret s = .next t ∧ SameMemory s t ∧
        t = { s with report := { s.report with code := .stackUnderflow, addr := 0#13 }
                     err := s.err ||| 0b0010#4 })

/-- The round trip of call and return (95_test_vectors.md S4, from R140 and R142): after a call, a return from any
state with that stack goes back to the instruction after the call and leaves the stack as it was before. -/
def Obligations.CallThenReturnComesBack : Prop :=
  ∀ (nnn : Addr) (s u : State), s.cfg.stackDepth ≠ some s.stack.length →
    ∃ t, exec (.call nnn) s = .next t ∧
      (u.stack = t.stack → ∃ r, exec .ret u = .next r ∧ r.pc = s.pc ∧ r.stack = s.stack)

/-- R150 and R151: 3XKK and 4XKK add 2 to PC, modulo 4096 (the spec's decision D2), when Vx equals or differs from
kk. -/
def Obligations.SkipsOnImmediate : Prop :=
  ∀ (x : Nibble) (kk : Byte) (s : State),
    decodeWord (formatRI 0x3#4 x kk) = .ok (.seImm x kk) ∧
    decodeWord (formatRI 0x4#4 x kk) = .ok (.sneImm x kk) ∧
    (∃ t, exec (.seImm x kk) s = .next t ∧ OnlyPc s t ∧
      t.pc.toNat = if s.reg x = kk then (s.pc.toNat + 2) % 4096 else s.pc.toNat) ∧
    (∃ t, exec (.sneImm x kk) s = .next t ∧ OnlyPc s t ∧
      t.pc.toNat = if s.reg x = kk then s.pc.toNat else (s.pc.toNat + 2) % 4096)

/-- R152 and R153: 5XY0 and 9XY0 add 2 to PC, modulo 4096 (the spec's decision D2), when Vx and Vy are equal or
differ, whatever the low nibble (D5). -/
def Obligations.SkipsOnRegisters : Prop :=
  ∀ (x y n : Nibble) (s : State),
    decodeWord (formatRRN 0x5#4 x y n) = .ok (.seReg x y n) ∧
    decodeWord (formatRRN 0x9#4 x y n) = .ok (.sneReg x y n) ∧
    (∃ t, exec (.seReg x y n) s = .next t ∧ OnlyPc s t ∧
      t.pc.toNat = if s.reg x = s.reg y then (s.pc.toNat + 2) % 4096 else s.pc.toNat) ∧
    (∃ t, exec (.sneReg x y n) s = .next t ∧ OnlyPc s t ∧
      t.pc.toNat = if s.reg x = s.reg y then s.pc.toNat else (s.pc.toNat + 2) % 4096)

/-! ## Load, arithmetic, logic, shift, random -/

/-- R161 and R163: 6XKK and 8XY0. -/
def Obligations.LoadsWriteOneRegister : Prop :=
  ∀ (x y : Nibble) (kk : Byte) (s : State),
    decodeWord (formatRI 0x6#4 x kk) = .ok (.ldImm x kk) ∧
    decodeWord (formatRRN 0x8#4 x y 0x0#4) = .ok (.ldReg x y) ∧
    (∃ t, exec (.ldImm x kk) s = .next t ∧ t.reg x = kk ∧ OnlyRegs [x] s t) ∧
    (∃ t, exec (.ldReg x y) s = .next t ∧ t.reg x = s.reg y ∧ OnlyRegs [x] s t)

/-- R162: 7XKK adds modulo 256 and sets no flag. -/
def Obligations.AddImmediateSetsNoFlag : Prop :=
  ∀ (x : Nibble) (kk : Byte) (s : State),
    decodeWord (formatRI 0x7#4 x kk) = .ok (.addImm x kk) ∧
    ∃ t, exec (.addImm x kk) s = .next t ∧
      (t.reg x).toNat = ((s.reg x).toNat + kk.toNat) % 256 ∧ OnlyRegs [x] s t

/-- R164, R165 and R166: OR, AND and XOR bit by bit; VF is not written. -/
def Obligations.LogicWritesNoFlag : Prop :=
  ∀ (x y : Nibble) (s : State),
    decodeWord (formatRRN 0x8#4 x y 0x1#4) = .ok (.orReg x y) ∧
    decodeWord (formatRRN 0x8#4 x y 0x2#4) = .ok (.andReg x y) ∧
    decodeWord (formatRRN 0x8#4 x y 0x3#4) = .ok (.xorReg x y) ∧
    (∃ t, exec (.orReg x y) s = .next t ∧ OnlyRegs [x] s t ∧
      ∀ k, (t.reg x).getLsbD k = ((s.reg x).getLsbD k || (s.reg y).getLsbD k)) ∧
    (∃ t, exec (.andReg x y) s = .next t ∧ OnlyRegs [x] s t ∧
      ∀ k, (t.reg x).getLsbD k = ((s.reg x).getLsbD k && (s.reg y).getLsbD k)) ∧
    (∃ t, exec (.xorReg x y) s = .next t ∧ OnlyRegs [x] s t ∧
      ∀ k, (t.reg x).getLsbD k = ((s.reg x).getLsbD k ^^ (s.reg y).getLsbD k))

/-- R167: 8XY4's sum modulo 256, then the carry in VF, from the sampled operands. The order of the two writes, by which
with x = F the carry remains, is the spec's decision D6 (log entry 14). -/
def Obligations.AddSetsCarryLast : Prop :=
  ∀ (x y : Nibble) (s : State),
    decodeWord (formatRRN 0x8#4 x y 0x4#4) = .ok (.addReg x y) ∧
    ∃ t, exec (.addReg x y) s = .next t ∧ OnlyRegs [x, vF] s t ∧
      (x ≠ vF → (t.reg x).toNat = ((s.reg x).toNat + (s.reg y).toNat) % 256) ∧
      (t.reg vF).toNat = if 255 < (s.reg x).toNat + (s.reg y).toNat then 1 else 0

/-- R168 and R170: 8XY5 and 8XY7, the strict no-borrow flag first, then the difference modulo 256. The order of the two
writes, by which with x = F the difference remains, is the spec's decision D6 (log entry 14). -/
def Obligations.SubtractSetsNoBorrowFirst : Prop :=
  ∀ (x y : Nibble) (s : State),
    decodeWord (formatRRN 0x8#4 x y 0x5#4) = .ok (.subReg x y) ∧
    decodeWord (formatRRN 0x8#4 x y 0x7#4) = .ok (.subnReg x y) ∧
    (∃ t, exec (.subReg x y) s = .next t ∧ OnlyRegs [x, vF] s t ∧
      ((t.reg x).toNat : Int) = ((s.reg x).toNat - (s.reg y).toNat : Int) % 256 ∧
      (x ≠ vF → (t.reg vF).toNat = if (s.reg y).toNat < (s.reg x).toNat then 1 else 0)) ∧
    (∃ t, exec (.subnReg x y) s = .next t ∧ OnlyRegs [x, vF] s t ∧
      ((t.reg x).toNat : Int) = ((s.reg y).toNat - (s.reg x).toNat : Int) % 256 ∧
      (x ≠ vF → (t.reg vF).toNat = if (s.reg x).toNat < (s.reg y).toNat then 1 else 0))

/-- R169 and R171: 8XY6 and 8XYE shift Vx by one in place, the bit shifted out to VF first; y is decoded and ignored.
The order of the two writes, by which with x = F the shifted value remains, is the spec's decision D6 (log entry 14). -/
def Obligations.ShiftsSetShiftedOutBitFirst : Prop :=
  ∀ (x y : Nibble) (s : State),
    decodeWord (formatRRN 0x8#4 x y 0x6#4) = .ok (.shr x y) ∧
    decodeWord (formatRRN 0x8#4 x y 0xE#4) = .ok (.shl x y) ∧
    (∃ t, exec (.shr x y) s = .next t ∧ OnlyRegs [x, vF] s t ∧
      (t.reg x).toNat = (s.reg x).toNat / 2 ∧
      (x ≠ vF → (t.reg vF).toNat = (s.reg x).toNat % 2)) ∧
    (∃ t, exec (.shl x y) s = .next t ∧ OnlyRegs [x, vF] s t ∧
      (t.reg x).toNat = (s.reg x).toNat * 2 % 256 ∧
      (x ≠ vF → (t.reg vF).toNat = (s.reg x).toNat / 128))

/-- R172: CXKK gives the cycle's random byte AND kk, whatever that byte is (the spec's decision D17; log entry 4):
no bit that kk lacks, and never above kk. -/
def Obligations.RandomIsMaskedByKk : Prop :=
  ∀ (x : Nibble) (kk : Byte) (s : State),
    decodeWord (formatRI 0xC#4 x kk) = .ok (.rnd x kk) ∧
    (∀ r : Byte, (s.withRandom x kk r).reg x = r &&& kk) ∧
    ∃ t, exec (.rnd x kk) s = .next t ∧ t = s.withRandom x kk (Config.rndInput s.rndCount) ∧
      OnlyRegs [x] s t ∧ t.reg x &&& ~~~kk = 0#8 ∧ (t.reg x).toNat ≤ kk.toNat

/-! ## Index register and memory transfer -/

/-- R180 and R182: ANNN, and FX29 with the whole of Vx, not masked. -/
def Obligations.IndexLoads : Prop :=
  ∀ (nnn : Addr) (x : Nibble) (s : State),
    decodeWord (formatA 0xA#4 nnn) = .ok (.ldI nnn) ∧
    decodeWord (formatRI 0xF#4 x 0x29#8) = .ok (.ldGlyph x) ∧
    (∃ t, exec (.ldI nnn) s = .next t ∧ t.i = nnn ∧ SameMemory s t ∧ t = { s with i := t.i }) ∧
    (∃ t, exec (.ldGlyph x) s = .next t ∧ t.i.toNat = 5 * (s.reg x).toNat ∧ SameMemory s t ∧
      t = { s with i := t.i })

/-- R181: FX1E adds Vx to I modulo 4096, then VF says whether the unreduced sum passed 0xFFF. -/
def Obligations.AddToIndexSetsOverflow : Prop :=
  ∀ (x : Nibble) (s : State),
    decodeWord (formatRI 0xF#4 x 0x1E#8) = .ok (.addI x) ∧
    ∃ t, exec (.addI x) s = .next t ∧
      t.i.toNat = (s.i.toNat + (s.reg x).toNat) % 4096 ∧
      (t.reg vF).toNat = (if 0xFFF < s.i.toNat + (s.reg x).toNat then 1 else 0) ∧
      (∀ z, z ≠ vF → t.reg z = s.reg z) ∧ SameMemory s t ∧ t = { s with i := t.i, v := t.v }

/-- R183: FX33 stores the three decimal digits of Vx at I, I + 1, I + 2 and changes nothing else; when I + 2 is
above 0xFFF it only reports OUT_OF_BOUNDS (the spec's decisions D9 and D11). -/
def Obligations.StoreDecimalDigitsAtIndex : Prop :=
  ∀ (x : Nibble) (s : State), Memory.wf s.cfg.font s.mem = true →
    decodeWord (formatRI 0xF#4 x 0x33#8) = .ok (.storeBcd x) ∧
    (s.i.toNat + 2 ≤ 0xFFF →
      ∃ t, exec (.storeBcd x) s = .next t ∧
        (t.memRead (effectiveAddr s.i 0)).toNat = (s.reg x).toNat / 100 ∧
        (t.memRead (effectiveAddr s.i 1)).toNat = (s.reg x).toNat / 10 % 10 ∧
        (t.memRead (effectiveAddr s.i 2)).toNat = (s.reg x).toNat % 10 ∧
        (∀ a, (a < effectiveAddr s.i 0 ∨ effectiveAddr s.i 2 < a) → t.memRead a = s.memRead a) ∧
        t = { s with mem := t.mem }) ∧
    (0xFFF < s.i.toNat + 2 →
      ∃ t, exec (.storeBcd x) s = .next t ∧ SameMemory s t ∧
        t = { s with
          report := { s.report with code := .outOfBounds, addr := BitVec.ofNat 13 (s.i.toNat + 2) }
          err := s.err ||| 0b0100#4 })

/-- R184: FX55 stores V0 to Vx at I to I + x, moves I past them modulo 4096 and changes nothing else; when I + x is
above 0xFFF it only reports OUT_OF_BOUNDS (the spec's decisions D9 and D11). -/
def Obligations.StoreRegistersAtIndex : Prop :=
  ∀ (x : Nibble) (s : State), Memory.wf s.cfg.font s.mem = true →
    decodeWord (formatRI 0xF#4 x 0x55#8) = .ok (.storeRegs x) ∧
    (s.i.toNat + x.toNat ≤ 0xFFF →
      ∃ t, exec (.storeRegs x) s = .next t ∧
        (∀ k : Nibble, k.toNat ≤ x.toNat → t.memRead (effectiveAddr s.i k.toNat) = s.reg k) ∧
        (∀ a, (a < effectiveAddr s.i 0 ∨ effectiveAddr s.i x.toNat < a) →
          t.memRead a = s.memRead a) ∧
        t.i.toNat = (s.i.toNat + x.toNat + 1) % 4096 ∧
        t = { s with mem := t.mem, i := t.i }) ∧
    (0xFFF < s.i.toNat + x.toNat →
      ∃ t, exec (.storeRegs x) s = .next t ∧ SameMemory s t ∧
        t = { s with
          report := { s.report with
            code := .outOfBounds, addr := BitVec.ofNat 13 (s.i.toNat + x.toNat) }
          err := s.err ||| 0b0100#4 })

/-- R185: FX65 loads V0 to Vx from I to I + x, moves I past them modulo 4096 and changes nothing else; when I + x is
above 0xFFF it only reports OUT_OF_BOUNDS (the spec's decisions D9 and D11). -/
def Obligations.LoadRegistersFromIndex : Prop :=
  ∀ (x : Nibble) (s : State),
    decodeWord (formatRI 0xF#4 x 0x65#8) = .ok (.loadRegs x) ∧
    (s.i.toNat + x.toNat ≤ 0xFFF →
      ∃ t, exec (.loadRegs x) s = .next t ∧
        (∀ k : Nibble, k.toNat ≤ x.toNat → t.reg k = s.memRead (effectiveAddr s.i k.toNat)) ∧
        (∀ k : Nibble, x.toNat < k.toNat → t.reg k = s.reg k) ∧
        t.i.toNat = (s.i.toNat + x.toNat + 1) % 4096 ∧
        SameMemory s t ∧ t = { s with v := t.v, i := t.i }) ∧
    (0xFFF < s.i.toNat + x.toNat →
      ∃ t, exec (.loadRegs x) s = .next t ∧ SameMemory s t ∧
        t = { s with
          report := { s.report with
            code := .outOfBounds, addr := BitVec.ofNat 13 (s.i.toNat + x.toNat) }
          err := s.err ||| 0b0100#4 })

/-- The round trip of FX55 and FX65 (95_test_vectors.md S6, from R184 and R185): store V0 to Vx, set I back, load:
every register has its old value, whatever the registers held in between. -/
def Obligations.StoreThenLoadRestoresRegisters : Prop :=
  ∀ (x : Nibble) (w : Vector Byte 16) (s : State), Memory.wf s.cfg.font s.mem = true →
    s.i.toNat + x.toNat ≤ 0xFFF →
    ∃ t u, exec (.storeRegs x) s = .next t ∧
      exec (.loadRegs x) ((t.setI s.i).setV w) = .next u ∧
      (∀ k : Nibble, k.toNat ≤ x.toNat → u.reg k = s.reg k) ∧ u.i = t.i

/-! ## Display -/

/-- R201: 00E0 sets every cell to 0 and DRAW to 1 (whether or not a cell changed: the spec's decision D15), and
nothing else. -/
def Obligations.ClearDisplaySetsDraw : Prop :=
  decodeWord 0x00E0#16 = .ok .cls ∧
  ∀ s : State, ∃ t, exec .cls s = .next t ∧ (∀ p, p < 2048 → t.disp.pixel p = false) ∧
    t.draw = true ∧ SameMemory s t ∧ t = { s with disp := t.disp, draw := t.draw }

/-- R202, R203 and R204: DXYN flips exactly the cells of the grid on which a 1 bit of the sprite lands, at the
unreduced position (Vx, Vy); VF is 1 exactly when one of those cells was 1, else 0; DRAW is set; nothing else
changes. With n > 0 and I + n - 1 above 0xFFF it only reports OUT_OF_BOUNDS. The bit order is the spec's decision
D13 (log entry 12), the clipping D14, DRAW D15, the range check D9, the report and ERR D11. -/
def Obligations.DrawFlipsCoveredCells : Prop :=
  ∀ (x y n : Nibble) (s : State),
    decodeWord (formatRRN 0xD#4 x y n) = .ok (.drw x y n) ∧
    (n = 0#4 ∨ s.i.toNat + n.toNat - 1 ≤ 0xFFF →
      ∃ t, exec (.drw x y n) s = .next t ∧
        (∀ tx ty, tx ≤ 63 → ty ≤ 31 →
          t.disp.pixel (tx + ty * 64) =
            (s.disp.pixel (tx + ty * 64) ^^ spriteCovers s x y n tx ty)) ∧
        (t.reg vF = 1#8 ↔ ∃ tx ty, tx ≤ 63 ∧ ty ≤ 31 ∧ spriteCovers s x y n tx ty = true ∧
          s.disp.pixel (tx + ty * 64) = true) ∧
        (t.reg vF = 0#8 ∨ t.reg vF = 1#8) ∧ t.draw = true ∧
        (∀ z, z ≠ vF → t.reg z = s.reg z) ∧ SameMemory s t ∧
        t = { s with disp := t.disp, v := t.v, draw := t.draw }) ∧
    (n ≠ 0#4 ∧ 0xFFF < s.i.toNat + n.toNat - 1 →
      ∃ t, exec (.drw x y n) s = .next t ∧ SameMemory s t ∧
        t = { s with
          report := { s.report with
            code := .outOfBounds, addr := BitVec.ofNat 13 (s.i.toNat + n.toNat - 1) }
          err := s.err ||| 0b0100#4 })

/-- R204 (f): two DXYN with the same operands restore the display, and when they are in bounds the second sets VF
exactly when the first turned some cell on. Bit order, clipping and the range check are the spec's decisions D13,
D14 and D9. The position registers are not VF, which the first DXYN writes. -/
def Obligations.DrawingTwiceRestoresDisplay : Prop :=
  ∀ (x y n : Nibble) (s : State), x ≠ vF → y ≠ vF →
    ∃ t u, exec (.drw x y n) s = .next t ∧ exec (.drw x y n) t = .next u ∧ u.disp = s.disp ∧
      (n = 0#4 ∨ s.i.toNat + n.toNat - 1 ≤ 0xFFF →
        (u.reg vF = 1#8 ↔ ∃ tx ty, tx ≤ 63 ∧ ty ≤ 31 ∧
          s.disp.pixel (tx + ty * 64) = false ∧ t.disp.pixel (tx + ty * 64) = true))

/-! ## Keypad and timers -/

/-- R210 and R211: EX9E and EXA1 add 2 to PC, modulo 4096 (the spec's decision D2), when the key numbered
Vx AND 0xF is down or up. -/
def Obligations.KeySkips : Prop :=
  ∀ (x : Nibble) (s : State),
    decodeWord (formatRI 0xE#4 x 0x9E#8) = .ok (.skp x) ∧
    decodeWord (formatRI 0xE#4 x 0xA1#8) = .ok (.sknp x) ∧
    ∀ k : Nibble, k.toNat = (s.reg x).toNat % 16 →
      (∃ t, exec (.skp x) s = .next t ∧ OnlyPc s t ∧
        t.pc.toNat = if s.keyDown k then (s.pc.toNat + 2) % 4096 else s.pc.toNat) ∧
      (∃ t, exec (.sknp x) s = .next t ∧ OnlyPc s t ∧
        t.pc.toNat = if s.keyDown k then s.pc.toNat else (s.pc.toNat + 2) % 4096)

/-- R212: with every key up, FX0A takes PC back to its own address and changes nothing else; with some key down, Vx
takes the least such key (the spec's decision D16; the rewind modulo 4096 is D2). -/
def Obligations.WaitForKeyPollsOrLoads : Prop :=
  ∀ (x : Nibble) (s : State),
    decodeWord (formatRI 0xF#4 x 0x0A#8) = .ok (.waitKey x) ∧
    ((∀ k, s.keyDown k = false) →
      ∃ t, exec (.waitKey x) s = .next t ∧ t.pc + 2 = s.pc ∧ OnlyPc s t) ∧
    (∀ k, s.keyDown k = true → (∀ j : Nibble, j.toNat < k.toNat → s.keyDown j = false) →
      ∃ t, exec (.waitKey x) s = .next t ∧ (t.reg x).toNat = k.toNat ∧ OnlyRegs [x] s t)

/-- R213, R214 and R215: FX07, FX15 and FX18; with the ratio 1 the tick of the same cycle has already taken one off
a timer just written. -/
def Obligations.TimerTransfers : Prop :=
  ∀ (x : Nibble) (s : State),
    decodeWord (formatRI 0xF#4 x 0x07#8) = .ok (.ldFromDt x) ∧
    decodeWord (formatRI 0xF#4 x 0x15#8) = .ok (.ldToDt x) ∧
    decodeWord (formatRI 0xF#4 x 0x18#8) = .ok (.ldToSt x) ∧
    (∃ t, exec (.ldFromDt x) s = .next t ∧ t.reg x = s.dt ∧ OnlyRegs [x] s t) ∧
    (∃ t, exec (.ldToDt x) s = .next t ∧ t.dt = s.reg x ∧ SameMemory s t ∧
      t = { s with dt := t.dt } ∧
      (s.cfg.cyclesPerTimerTick = 1 → s.tdiv = 0 →
        t.finishCycle.dt.toNat = (s.reg x).toNat - 1)) ∧
    (∃ t, exec (.ldToSt x) s = .next t ∧ t.st = s.reg x ∧ SameMemory s t ∧
      t = { s with st := t.st } ∧
      (s.cfg.cyclesPerTimerTick = 1 → s.tdiv = 0 →
        t.finishCycle.st.toNat = (s.reg x).toNat - 1))

/-- R128: in every cycle, whatever it executes or reports, TDIV counts and both timers lose one, never below 0, in
the cycles in which TDIV reaches the ratio (its counting is the spec's decision D20, the tick of a reporting cycle
D10); DT apart in a cycle that executes FX15, ST apart in one that executes FX18. -/
def Obligations.TimersTickInEveryCycle : Prop :=
  ∀ s : State, ∃ t, step s = .next t ∧
    t.tdiv = (if s.tdiv + 1 = s.cfg.cyclesPerTimerTick then 0 else s.tdiv + 1) ∧
    ((∀ x, ¬ Executes s (.ldToDt x)) →
      t.dt.toNat = if s.tdiv + 1 = s.cfg.cyclesPerTimerTick then s.dt.toNat - 1 else s.dt.toNat) ∧
    ((∀ x, ¬ Executes s (.ldToSt x)) →
      t.st.toNat = if s.tdiv + 1 = s.cfg.cyclesPerTimerTick then s.st.toNat - 1 else s.st.toNat)

/-- R216: with the ratio 1, after k cycles none of which executes FX15, DT is its old value less k, and 0 at the
least. -/
def Obligations.DelayTimerCountsDownOverCycles : Prop :=
  ∀ (k : Nat) (s : State), s.cfg.cyclesPerTimerTick = 1 → s.tdiv = 0 →
    (∀ j u, j < k → cycles j s = .next u → ∀ x, ¬ Executes u (.ldToDt x)) →
    ∃ t, cycles k s = .next t ∧ t.dt.toNat = s.dt.toNat - k

/-! ## Whole-machine rules: what a cycle may change -/

/-- R186: I is changed by ANNN, FX1E, FX29, FX55 and FX65 only. -/
def Obligations.IndexChangedOnlyByItsInstructions : Prop :=
  ∀ s : State, ∃ t, step s = .next t ∧
    ((∀ i, Executes s i → Instr.writesIndex i = false) → t.i = s.i)

/-- R25: the stack is changed by 2NNN and 00EE only, and by one entry at its top at most. -/
def Obligations.StackChangedOnlyByCallAndReturn : Prop :=
  ∀ s : State, ∃ t, step s = .next t ∧
    ((∀ i, Executes s i → Instr.writesStack i = false) → t.stack = s.stack) ∧
    (t.stack = s.stack ∨ t.stack = s.stack ++ [s.pc + 2] ∨ ∃ a, s.stack = t.stack ++ [a])

/-- R28 and R29 (DRAW set by every such instruction is the spec's decision D15): the display is changed by 00E0 and
DXYN only; no cycle clears DRAW and no other instruction sets it. -/
def Obligations.DisplayChangedOnlyByClearAndDraw : Prop :=
  ∀ s : State, ∃ t, step s = .next t ∧
    ((∀ i, Executes s i → Instr.writesDisplay i = false) → t.disp = s.disp ∧ t.draw = s.draw) ∧
    (s.draw = true → t.draw = true)

/-- R20 and R60: in a cycle memory is changed by FX33 and FX55 only. -/
def Obligations.MemoryChangedOnlyByStores : Prop :=
  ∀ s : State, ∃ t, step s = .next t ∧
    ((∀ i, Executes s i → Instr.writesMemory i = false) → t.mem = s.mem ∧ SameMemory s t)

/-- R20 and R24: a register is changed only by an instruction that names it as its destination, FX65 counting V0 to
Vx, or, VF, by the seven instructions that write VF as a flag. -/
def Obligations.RegistersChangedOnlyByTheirWriters : Prop :=
  ∀ s : State, ∃ t, step s = .next t ∧ ∀ z,
    (∀ i, Executes s i →
      Instr.writesOperand z i = false ∧ (z = vF → Instr.writesFlag i = false)) →
    t.reg z = s.reg z

/-- R24: a cycle that executes an instruction which writes VF as a flag, and not as its operand destination, leaves 0
or 1 in VF unless it reports a condition. -/
def Obligations.FlagIsZeroOrOne : Prop :=
  ∀ (s : State) (i : Instr), Executes s i → Instr.writesFlag i = true →
    Instr.writesOperand vF i = false →
    ∃ t, step s = .next t ∧
      (t.report.code = .noCondition → t.reg vF = 0#8 ∨ t.reg vF = 1#8)

/-- R30 and R38: no cycle changes a key or a parameter. -/
def Obligations.CyclesNeverChangeKeysOrParameters : Prop :=
  ∀ s : State, ∃ t, step s = .next t ∧ t.key = s.key ∧ t.cfg = s.cfg

/-- R242 (the spec's decision D26): a cycle that executes a jump to its own address leaves every element of the state
unchanged but the timers and their divider (and the cycle's own report and draw count, log entries 5 and 4). -/
def Obligations.JumpToSelfChangesOnlyTimers : Prop :=
  ∀ s : State, Executes s (.jp s.pc) →
    ∃ t, step s = .next t ∧ t.err = s.err ∧
      t = { s with dt := t.dt, st := t.st, tdiv := t.tdiv, report := t.report,
                   rndCount := s.rndCount + 1 }

/-! ## Host operations -/

/-- R231: `loadProgram` copies at most 3584 bytes to 0x200 on and changes nothing else (the spec's decision D21); a
longer image is refused and changes nothing. -/
def Obligations.LoadProgramCopiesImageOnly : Prop :=
  ∀ (bytes : List Byte) (s : State), Memory.wf s.cfg.font s.mem = true →
    (bytes.length ≤ 3584 →
      ∃ t, hostCall (.loadProgram bytes) s = .next (t, .done) ∧
        (∀ k (h : k < bytes.length), t.memRead (0x200 + k) = bytes[k]) ∧
        (∀ a, (a < 0x200 ∨ 0x200 + bytes.length ≤ a) → t.memRead a = s.memRead a) ∧
        t = { s with mem := t.mem }) ∧
    (3584 < bytes.length →
      hostCall (.loadProgram bytes) s = .next (s, .failed .programTooLarge))

/-- R234: `setKeyState` sets one key and nothing else; an index above 15 (the spec's decision D28) is refused and
changes nothing. -/
def Obligations.SetKeyStateSetsOneKey : Prop :=
  ∀ (d : Bool) (s : State),
    (∀ k : Nibble, ∃ t, hostCall (.setKeyState k.toNat d) s = .next (t, .done) ∧
      t.keyDown k = d ∧ (∀ j, j ≠ k → t.keyDown j = s.keyDown j) ∧ SameMemory s t ∧
      t = { s with key := t.key }) ∧
    (∀ k, 15 < k → hostCall (.setKeyState k d) s = .next (s, .failed .keyOutOfBounds))

/-- R235, R236 and R237: what the host reads, and the one thing a read changes: `consumeDirtyFlag` clears DRAW.
Reading ERR (R239) is the spec's decision D11; that the 2048 cells stand as 32 rows of 64 is the model's choice (log
entry 9). -/
def Obligations.HostReadsAndDirtyFlag : Prop :=
  ∀ s : State,
    hostCall .getDisplayBuffer s = .next (s, .display s.disp) ∧
    (∀ x y, (hx : x < 64) → (hy : y < 32) → s.disp[y][x] = s.disp.pixel (x + y * 64)) ∧
    hostCall .getSoundTimerValue s = .next (s, .sound s.st) ∧
    hostCall .readErr s = .next (s, .status s.err) ∧
    hostCall .consumeDirtyFlag s = .next ({ s with draw := false }, .dirty s.draw) ∧
    hostCall .consumeDirtyFlag { s with draw := false } =
      .next ({ s with draw := false }, .dirty false)

/-- R233: `runCycle` is one cycle, always completes, and hands back the report of that cycle (the report is the spec's
decision D11). -/
def Obligations.RunCycleHandsBackReport : Prop :=
  ∀ s : State, ∃ t, step s = .next t ∧ hostCall .runCycle s = .next (t, .report (reportOfCycle s))
end

