-- ==== Sys2Proof/Laws/Decode.lean ====
section
/-! SUPPORT. The fields of a word in each format (30_encoding.md R91, R93), and a word rebuilt from its
fields, so that no proof about decoding unfolds a bit extraction. -/

namespace Sys2Proof

/-! ## The bits of each format -/

theorem getLsbD_formatA (op : Nibble) (nnn : Addr) (k : Nat) :
    (formatA op nnn).getLsbD k = if k < 12 then nnn.getLsbD k else op.getLsbD (k - 12) :=
  BitVec.getLsbD_append

theorem getLsbD_formatRI (op x : Nibble) (kk : Byte) (k : Nat) :
    (formatRI op x kk).getLsbD k =
      if k < 12 then if k < 8 then kk.getLsbD k else x.getLsbD (k - 8) else op.getLsbD (k - 12) := by
  have h : (x ++ kk : Addr).getLsbD k = if k < 8 then kk.getLsbD k else x.getLsbD (k - 8) :=
    BitVec.getLsbD_append
  rw [← h]
  exact getLsbD_formatA op (x ++ kk) k

theorem getLsbD_formatRRN (op x y n : Nibble) (k : Nat) :
    (formatRRN op x y n).getLsbD k =
      if k < 12 then
        if k < 8 then if k < 4 then n.getLsbD k else y.getLsbD (k - 4) else x.getLsbD (k - 8)
      else op.getLsbD (k - 12) := by
  have h : (y ++ n : Byte).getLsbD k = if k < 4 then n.getLsbD k else y.getLsbD (k - 4) :=
    BitVec.getLsbD_append
  rw [← h]
  exact getLsbD_formatRI op x (y ++ n) k

/-! ## The fields of each format -/

theorem getElem_extract {w start len : Nat} (v : BitVec w) (k : Nat) (hk : k < len) :
    (v.extractLsb' start len)[k] = v.getLsbD (start + k) := by
  simp

@[simp] theorem fieldOp_formatA (op : Nibble) (nnn : Addr) : fieldOp (formatA op nnn) = op := by
  ext k hk
  rw [fieldOp, getElem_extract, getLsbD_formatA, if_neg (by omega), Nat.add_sub_cancel_left,
    BitVec.getLsbD_eq_getElem hk]

@[simp] theorem fieldNnn_formatA (op : Nibble) (nnn : Addr) : fieldNnn (formatA op nnn) = nnn := by
  ext k hk
  rw [fieldNnn, getElem_extract, getLsbD_formatA, if_pos (by omega), Nat.zero_add,
    BitVec.getLsbD_eq_getElem hk]

@[simp] theorem fieldOp_formatRI (op x : Nibble) (kk : Byte) : fieldOp (formatRI op x kk) = op :=
  fieldOp_formatA op (x ++ kk)

@[simp] theorem fieldX_formatRI (op x : Nibble) (kk : Byte) : fieldX (formatRI op x kk) = x := by
  ext k hk
  rw [fieldX, getElem_extract, getLsbD_formatRI, if_pos (by omega), if_neg (by omega),
    Nat.add_sub_cancel_left, BitVec.getLsbD_eq_getElem hk]

@[simp] theorem fieldKk_formatRI (op x : Nibble) (kk : Byte) : fieldKk (formatRI op x kk) = kk := by
  ext k hk
  rw [fieldKk, getElem_extract, getLsbD_formatRI, if_pos (by omega), if_pos (by omega),
    Nat.zero_add, BitVec.getLsbD_eq_getElem hk]

@[simp] theorem fieldOp_formatRRN (op x y n : Nibble) : fieldOp (formatRRN op x y n) = op :=
  fieldOp_formatRI op x (y ++ n)

@[simp] theorem fieldX_formatRRN (op x y n : Nibble) : fieldX (formatRRN op x y n) = x :=
  fieldX_formatRI op x (y ++ n)

@[simp] theorem fieldY_formatRRN (op x y n : Nibble) : fieldY (formatRRN op x y n) = y := by
  ext k hk
  rw [fieldY, getElem_extract, getLsbD_formatRRN, if_pos (by omega), if_pos (by omega),
    if_neg (by omega), Nat.add_sub_cancel_left, BitVec.getLsbD_eq_getElem hk]

@[simp] theorem fieldN_formatRRN (op x y n : Nibble) : fieldN (formatRRN op x y n) = n := by
  ext k hk
  rw [fieldN, getElem_extract, getLsbD_formatRRN, if_pos (by omega), if_pos (by omega),
    if_pos (by omega), Nat.zero_add, BitVec.getLsbD_eq_getElem hk]

/-! ## A word is its fields -/

theorem formatA_fields (iw : Word) : formatA (fieldOp iw) (fieldNnn iw) = iw := by
  ext k hk
  rw [← BitVec.getLsbD_eq_getElem, ← BitVec.getLsbD_eq_getElem, getLsbD_formatA]
  split
  · next h => rw [BitVec.getLsbD_eq_getElem h, fieldNnn, getElem_extract, Nat.zero_add]
  · next h =>
    rw [BitVec.getLsbD_eq_getElem (by omega), fieldOp, getElem_extract,
      show 12 + (k - 12) = k by omega]

theorem formatRI_fields (iw : Word) : formatRI (fieldOp iw) (fieldX iw) (fieldKk iw) = iw := by
  ext k hk
  rw [← BitVec.getLsbD_eq_getElem, ← BitVec.getLsbD_eq_getElem, getLsbD_formatRI]
  split
  · split
    · next h => rw [BitVec.getLsbD_eq_getElem h, fieldKk, getElem_extract, Nat.zero_add]
    · rw [BitVec.getLsbD_eq_getElem (by omega), fieldX, getElem_extract,
        show 8 + (k - 8) = k by omega]
  · rw [BitVec.getLsbD_eq_getElem (by omega), fieldOp, getElem_extract,
      show 12 + (k - 12) = k by omega]

theorem formatRRN_fields (iw : Word) :
    formatRRN (fieldOp iw) (fieldX iw) (fieldY iw) (fieldN iw) = iw := by
  ext k hk
  rw [← BitVec.getLsbD_eq_getElem, ← BitVec.getLsbD_eq_getElem, getLsbD_formatRRN]
  split
  · split
    · split
      · next h => rw [BitVec.getLsbD_eq_getElem h, fieldN, getElem_extract, Nat.zero_add]
      · rw [BitVec.getLsbD_eq_getElem (by omega), fieldY, getElem_extract,
          show 4 + (k - 4) = k by omega]
    · rw [BitVec.getLsbD_eq_getElem (by omega), fieldX, getElem_extract,
        show 8 + (k - 8) = k by omega]
  · rw [BitVec.getLsbD_eq_getElem (by omega), fieldOp, getElem_extract,
      show 12 + (k - 12) = k by omega]

/-! ## Bytes -/

/-- A word laid out as memory holds it reads back as itself (R65). -/
@[simp] theorem wordOfBytes_bytesOfWord (iw : Word) :
    wordOfBytes (iw.extractLsb' 8 8) (iw.extractLsb' 0 8) = iw := by
  ext k hk
  have h : (wordOfBytes (iw.extractLsb' 8 8) (iw.extractLsb' 0 8)).getLsbD k =
      if k < 8 then (iw.extractLsb' 0 8).getLsbD k else (iw.extractLsb' 8 8).getLsbD (k - 8) :=
    BitVec.getLsbD_append
  rw [← BitVec.getLsbD_eq_getElem, ← BitVec.getLsbD_eq_getElem, h]
  split
  · next h => rw [BitVec.getLsbD_eq_getElem h, getElem_extract, Nat.zero_add]
  · rw [BitVec.getLsbD_eq_getElem (by omega), getElem_extract, show 8 + (k - 8) = k by omega]

end Sys2Proof
end

