-- ==== Sys2Proof/Laws/State.lean ====
section
/-! SUPPORT. One lemma per field per update of State, and per reader of State per update, so that no later
proof unfolds a record update. -/

namespace Sys2Proof.Machine

/-! ## The named updates, field by field -/

@[simp] theorem State.setMem_mem (s : State) (m : Memory) : (s.setMem m).mem = m := rfl
@[simp] theorem State.setMem_v (s : State) (m : Memory) : (s.setMem m).v = s.v := rfl
@[simp] theorem State.setMem_i (s : State) (m : Memory) : (s.setMem m).i = s.i := rfl
@[simp] theorem State.setMem_pc (s : State) (m : Memory) : (s.setMem m).pc = s.pc := rfl
@[simp] theorem State.setMem_stack (s : State) (m : Memory) : (s.setMem m).stack = s.stack := rfl
@[simp] theorem State.setMem_disp (s : State) (m : Memory) : (s.setMem m).disp = s.disp := rfl
@[simp] theorem State.setMem_draw (s : State) (m : Memory) : (s.setMem m).draw = s.draw := rfl
@[simp] theorem State.setMem_key (s : State) (m : Memory) : (s.setMem m).key = s.key := rfl
@[simp] theorem State.setMem_dt (s : State) (m : Memory) : (s.setMem m).dt = s.dt := rfl
@[simp] theorem State.setMem_st (s : State) (m : Memory) : (s.setMem m).st = s.st := rfl
@[simp] theorem State.setMem_tdiv (s : State) (m : Memory) : (s.setMem m).tdiv = s.tdiv := rfl
@[simp] theorem State.setMem_err (s : State) (m : Memory) : (s.setMem m).err = s.err := rfl
@[simp] theorem State.setMem_report (s : State) (m : Memory) : (s.setMem m).report = s.report := rfl
@[simp] theorem State.setMem_rndCount (s : State) (m : Memory) :
    (s.setMem m).rndCount = s.rndCount := rfl
@[simp] theorem State.setMem_cfg (s : State) (m : Memory) : (s.setMem m).cfg = s.cfg := rfl

@[simp] theorem State.setV_mem (s : State) (w : Vector Byte 16) : (s.setV w).mem = s.mem := rfl
@[simp] theorem State.setV_v (s : State) (w : Vector Byte 16) : (s.setV w).v = w := rfl
@[simp] theorem State.setV_i (s : State) (w : Vector Byte 16) : (s.setV w).i = s.i := rfl
@[simp] theorem State.setV_pc (s : State) (w : Vector Byte 16) : (s.setV w).pc = s.pc := rfl
@[simp] theorem State.setV_stack (s : State) (w : Vector Byte 16) :
    (s.setV w).stack = s.stack := rfl
@[simp] theorem State.setV_disp (s : State) (w : Vector Byte 16) : (s.setV w).disp = s.disp := rfl
@[simp] theorem State.setV_draw (s : State) (w : Vector Byte 16) : (s.setV w).draw = s.draw := rfl
@[simp] theorem State.setV_key (s : State) (w : Vector Byte 16) : (s.setV w).key = s.key := rfl
@[simp] theorem State.setV_dt (s : State) (w : Vector Byte 16) : (s.setV w).dt = s.dt := rfl
@[simp] theorem State.setV_st (s : State) (w : Vector Byte 16) : (s.setV w).st = s.st := rfl
@[simp] theorem State.setV_tdiv (s : State) (w : Vector Byte 16) : (s.setV w).tdiv = s.tdiv := rfl
@[simp] theorem State.setV_err (s : State) (w : Vector Byte 16) : (s.setV w).err = s.err := rfl
@[simp] theorem State.setV_report (s : State) (w : Vector Byte 16) :
    (s.setV w).report = s.report := rfl
@[simp] theorem State.setV_rndCount (s : State) (w : Vector Byte 16) :
    (s.setV w).rndCount = s.rndCount := rfl
@[simp] theorem State.setV_cfg (s : State) (w : Vector Byte 16) : (s.setV w).cfg = s.cfg := rfl

@[simp] theorem State.setI_mem (s : State) (a : Addr) : (s.setI a).mem = s.mem := rfl
@[simp] theorem State.setI_v (s : State) (a : Addr) : (s.setI a).v = s.v := rfl
@[simp] theorem State.setI_i (s : State) (a : Addr) : (s.setI a).i = a := rfl
@[simp] theorem State.setI_pc (s : State) (a : Addr) : (s.setI a).pc = s.pc := rfl
@[simp] theorem State.setI_stack (s : State) (a : Addr) : (s.setI a).stack = s.stack := rfl
@[simp] theorem State.setI_disp (s : State) (a : Addr) : (s.setI a).disp = s.disp := rfl
@[simp] theorem State.setI_draw (s : State) (a : Addr) : (s.setI a).draw = s.draw := rfl
@[simp] theorem State.setI_key (s : State) (a : Addr) : (s.setI a).key = s.key := rfl
@[simp] theorem State.setI_dt (s : State) (a : Addr) : (s.setI a).dt = s.dt := rfl
@[simp] theorem State.setI_st (s : State) (a : Addr) : (s.setI a).st = s.st := rfl
@[simp] theorem State.setI_tdiv (s : State) (a : Addr) : (s.setI a).tdiv = s.tdiv := rfl
@[simp] theorem State.setI_err (s : State) (a : Addr) : (s.setI a).err = s.err := rfl
@[simp] theorem State.setI_report (s : State) (a : Addr) : (s.setI a).report = s.report := rfl
@[simp] theorem State.setI_rndCount (s : State) (a : Addr) : (s.setI a).rndCount = s.rndCount := rfl
@[simp] theorem State.setI_cfg (s : State) (a : Addr) : (s.setI a).cfg = s.cfg := rfl

@[simp] theorem State.setPc_mem (s : State) (a : Addr) : (s.setPc a).mem = s.mem := rfl
@[simp] theorem State.setPc_v (s : State) (a : Addr) : (s.setPc a).v = s.v := rfl
@[simp] theorem State.setPc_i (s : State) (a : Addr) : (s.setPc a).i = s.i := rfl
@[simp] theorem State.setPc_pc (s : State) (a : Addr) : (s.setPc a).pc = a := rfl
@[simp] theorem State.setPc_stack (s : State) (a : Addr) : (s.setPc a).stack = s.stack := rfl
@[simp] theorem State.setPc_disp (s : State) (a : Addr) : (s.setPc a).disp = s.disp := rfl
@[simp] theorem State.setPc_draw (s : State) (a : Addr) : (s.setPc a).draw = s.draw := rfl
@[simp] theorem State.setPc_key (s : State) (a : Addr) : (s.setPc a).key = s.key := rfl
@[simp] theorem State.setPc_dt (s : State) (a : Addr) : (s.setPc a).dt = s.dt := rfl
@[simp] theorem State.setPc_st (s : State) (a : Addr) : (s.setPc a).st = s.st := rfl
@[simp] theorem State.setPc_tdiv (s : State) (a : Addr) : (s.setPc a).tdiv = s.tdiv := rfl
@[simp] theorem State.setPc_err (s : State) (a : Addr) : (s.setPc a).err = s.err := rfl
@[simp] theorem State.setPc_report (s : State) (a : Addr) : (s.setPc a).report = s.report := rfl
@[simp] theorem State.setPc_rndCount (s : State) (a : Addr) :
    (s.setPc a).rndCount = s.rndCount := rfl
@[simp] theorem State.setPc_cfg (s : State) (a : Addr) : (s.setPc a).cfg = s.cfg := rfl

@[simp] theorem State.setStack_mem (s : State) (l : List Addr) : (s.setStack l).mem = s.mem := rfl
@[simp] theorem State.setStack_v (s : State) (l : List Addr) : (s.setStack l).v = s.v := rfl
@[simp] theorem State.setStack_i (s : State) (l : List Addr) : (s.setStack l).i = s.i := rfl
@[simp] theorem State.setStack_pc (s : State) (l : List Addr) : (s.setStack l).pc = s.pc := rfl
@[simp] theorem State.setStack_stack (s : State) (l : List Addr) : (s.setStack l).stack = l := rfl
@[simp] theorem State.setStack_disp (s : State) (l : List Addr) :
    (s.setStack l).disp = s.disp := rfl
@[simp] theorem State.setStack_draw (s : State) (l : List Addr) :
    (s.setStack l).draw = s.draw := rfl
@[simp] theorem State.setStack_key (s : State) (l : List Addr) : (s.setStack l).key = s.key := rfl
@[simp] theorem State.setStack_dt (s : State) (l : List Addr) : (s.setStack l).dt = s.dt := rfl
@[simp] theorem State.setStack_st (s : State) (l : List Addr) : (s.setStack l).st = s.st := rfl
@[simp] theorem State.setStack_tdiv (s : State) (l : List Addr) :
    (s.setStack l).tdiv = s.tdiv := rfl
@[simp] theorem State.setStack_err (s : State) (l : List Addr) : (s.setStack l).err = s.err := rfl
@[simp] theorem State.setStack_report (s : State) (l : List Addr) :
    (s.setStack l).report = s.report := rfl
@[simp] theorem State.setStack_rndCount (s : State) (l : List Addr) :
    (s.setStack l).rndCount = s.rndCount := rfl
@[simp] theorem State.setStack_cfg (s : State) (l : List Addr) : (s.setStack l).cfg = s.cfg := rfl

@[simp] theorem State.setDisp_mem (s : State) (d : Display) : (s.setDisp d).mem = s.mem := rfl
@[simp] theorem State.setDisp_v (s : State) (d : Display) : (s.setDisp d).v = s.v := rfl
@[simp] theorem State.setDisp_i (s : State) (d : Display) : (s.setDisp d).i = s.i := rfl
@[simp] theorem State.setDisp_pc (s : State) (d : Display) : (s.setDisp d).pc = s.pc := rfl
@[simp] theorem State.setDisp_stack (s : State) (d : Display) : (s.setDisp d).stack = s.stack := rfl
@[simp] theorem State.setDisp_disp (s : State) (d : Display) : (s.setDisp d).disp = d := rfl
@[simp] theorem State.setDisp_draw (s : State) (d : Display) : (s.setDisp d).draw = s.draw := rfl
@[simp] theorem State.setDisp_key (s : State) (d : Display) : (s.setDisp d).key = s.key := rfl
@[simp] theorem State.setDisp_dt (s : State) (d : Display) : (s.setDisp d).dt = s.dt := rfl
@[simp] theorem State.setDisp_st (s : State) (d : Display) : (s.setDisp d).st = s.st := rfl
@[simp] theorem State.setDisp_tdiv (s : State) (d : Display) : (s.setDisp d).tdiv = s.tdiv := rfl
@[simp] theorem State.setDisp_err (s : State) (d : Display) : (s.setDisp d).err = s.err := rfl
@[simp] theorem State.setDisp_report (s : State) (d : Display) :
    (s.setDisp d).report = s.report := rfl
@[simp] theorem State.setDisp_rndCount (s : State) (d : Display) :
    (s.setDisp d).rndCount = s.rndCount := rfl
@[simp] theorem State.setDisp_cfg (s : State) (d : Display) : (s.setDisp d).cfg = s.cfg := rfl

@[simp] theorem State.setDraw_mem (s : State) (b : Bool) : (s.setDraw b).mem = s.mem := rfl
@[simp] theorem State.setDraw_v (s : State) (b : Bool) : (s.setDraw b).v = s.v := rfl
@[simp] theorem State.setDraw_i (s : State) (b : Bool) : (s.setDraw b).i = s.i := rfl
@[simp] theorem State.setDraw_pc (s : State) (b : Bool) : (s.setDraw b).pc = s.pc := rfl
@[simp] theorem State.setDraw_stack (s : State) (b : Bool) : (s.setDraw b).stack = s.stack := rfl
@[simp] theorem State.setDraw_disp (s : State) (b : Bool) : (s.setDraw b).disp = s.disp := rfl
@[simp] theorem State.setDraw_draw (s : State) (b : Bool) : (s.setDraw b).draw = b := rfl
@[simp] theorem State.setDraw_key (s : State) (b : Bool) : (s.setDraw b).key = s.key := rfl
@[simp] theorem State.setDraw_dt (s : State) (b : Bool) : (s.setDraw b).dt = s.dt := rfl
@[simp] theorem State.setDraw_st (s : State) (b : Bool) : (s.setDraw b).st = s.st := rfl
@[simp] theorem State.setDraw_tdiv (s : State) (b : Bool) : (s.setDraw b).tdiv = s.tdiv := rfl
@[simp] theorem State.setDraw_err (s : State) (b : Bool) : (s.setDraw b).err = s.err := rfl
@[simp] theorem State.setDraw_report (s : State) (b : Bool) : (s.setDraw b).report = s.report := rfl
@[simp] theorem State.setDraw_rndCount (s : State) (b : Bool) :
    (s.setDraw b).rndCount = s.rndCount := rfl
@[simp] theorem State.setDraw_cfg (s : State) (b : Bool) : (s.setDraw b).cfg = s.cfg := rfl

@[simp] theorem State.setKey_mem (s : State) (k : Vector Bool 16) : (s.setKey k).mem = s.mem := rfl
@[simp] theorem State.setKey_v (s : State) (k : Vector Bool 16) : (s.setKey k).v = s.v := rfl
@[simp] theorem State.setKey_i (s : State) (k : Vector Bool 16) : (s.setKey k).i = s.i := rfl
@[simp] theorem State.setKey_pc (s : State) (k : Vector Bool 16) : (s.setKey k).pc = s.pc := rfl
@[simp] theorem State.setKey_stack (s : State) (k : Vector Bool 16) :
    (s.setKey k).stack = s.stack := rfl
@[simp] theorem State.setKey_disp (s : State) (k : Vector Bool 16) :
    (s.setKey k).disp = s.disp := rfl
@[simp] theorem State.setKey_draw (s : State) (k : Vector Bool 16) :
    (s.setKey k).draw = s.draw := rfl
@[simp] theorem State.setKey_key (s : State) (k : Vector Bool 16) : (s.setKey k).key = k := rfl
@[simp] theorem State.setKey_dt (s : State) (k : Vector Bool 16) : (s.setKey k).dt = s.dt := rfl
@[simp] theorem State.setKey_st (s : State) (k : Vector Bool 16) : (s.setKey k).st = s.st := rfl
@[simp] theorem State.setKey_tdiv (s : State) (k : Vector Bool 16) :
    (s.setKey k).tdiv = s.tdiv := rfl
@[simp] theorem State.setKey_err (s : State) (k : Vector Bool 16) : (s.setKey k).err = s.err := rfl
@[simp] theorem State.setKey_report (s : State) (k : Vector Bool 16) :
    (s.setKey k).report = s.report := rfl
@[simp] theorem State.setKey_rndCount (s : State) (k : Vector Bool 16) :
    (s.setKey k).rndCount = s.rndCount := rfl
@[simp] theorem State.setKey_cfg (s : State) (k : Vector Bool 16) : (s.setKey k).cfg = s.cfg := rfl

@[simp] theorem State.setDt_mem (s : State) (b : Byte) : (s.setDt b).mem = s.mem := rfl
@[simp] theorem State.setDt_v (s : State) (b : Byte) : (s.setDt b).v = s.v := rfl
@[simp] theorem State.setDt_i (s : State) (b : Byte) : (s.setDt b).i = s.i := rfl
@[simp] theorem State.setDt_pc (s : State) (b : Byte) : (s.setDt b).pc = s.pc := rfl
@[simp] theorem State.setDt_stack (s : State) (b : Byte) : (s.setDt b).stack = s.stack := rfl
@[simp] theorem State.setDt_disp (s : State) (b : Byte) : (s.setDt b).disp = s.disp := rfl
@[simp] theorem State.setDt_draw (s : State) (b : Byte) : (s.setDt b).draw = s.draw := rfl
@[simp] theorem State.setDt_key (s : State) (b : Byte) : (s.setDt b).key = s.key := rfl
@[simp] theorem State.setDt_dt (s : State) (b : Byte) : (s.setDt b).dt = b := rfl
@[simp] theorem State.setDt_st (s : State) (b : Byte) : (s.setDt b).st = s.st := rfl
@[simp] theorem State.setDt_tdiv (s : State) (b : Byte) : (s.setDt b).tdiv = s.tdiv := rfl
@[simp] theorem State.setDt_err (s : State) (b : Byte) : (s.setDt b).err = s.err := rfl
@[simp] theorem State.setDt_report (s : State) (b : Byte) : (s.setDt b).report = s.report := rfl
@[simp] theorem State.setDt_rndCount (s : State) (b : Byte) :
    (s.setDt b).rndCount = s.rndCount := rfl
@[simp] theorem State.setDt_cfg (s : State) (b : Byte) : (s.setDt b).cfg = s.cfg := rfl

@[simp] theorem State.setSt_mem (s : State) (b : Byte) : (s.setSt b).mem = s.mem := rfl
@[simp] theorem State.setSt_v (s : State) (b : Byte) : (s.setSt b).v = s.v := rfl
@[simp] theorem State.setSt_i (s : State) (b : Byte) : (s.setSt b).i = s.i := rfl
@[simp] theorem State.setSt_pc (s : State) (b : Byte) : (s.setSt b).pc = s.pc := rfl
@[simp] theorem State.setSt_stack (s : State) (b : Byte) : (s.setSt b).stack = s.stack := rfl
@[simp] theorem State.setSt_disp (s : State) (b : Byte) : (s.setSt b).disp = s.disp := rfl
@[simp] theorem State.setSt_draw (s : State) (b : Byte) : (s.setSt b).draw = s.draw := rfl
@[simp] theorem State.setSt_key (s : State) (b : Byte) : (s.setSt b).key = s.key := rfl
@[simp] theorem State.setSt_dt (s : State) (b : Byte) : (s.setSt b).dt = s.dt := rfl
@[simp] theorem State.setSt_st (s : State) (b : Byte) : (s.setSt b).st = b := rfl
@[simp] theorem State.setSt_tdiv (s : State) (b : Byte) : (s.setSt b).tdiv = s.tdiv := rfl
@[simp] theorem State.setSt_err (s : State) (b : Byte) : (s.setSt b).err = s.err := rfl
@[simp] theorem State.setSt_report (s : State) (b : Byte) : (s.setSt b).report = s.report := rfl
@[simp] theorem State.setSt_rndCount (s : State) (b : Byte) :
    (s.setSt b).rndCount = s.rndCount := rfl
@[simp] theorem State.setSt_cfg (s : State) (b : Byte) : (s.setSt b).cfg = s.cfg := rfl

@[simp] theorem State.setTdiv_mem (s : State) (n : Nat) : (s.setTdiv n).mem = s.mem := rfl
@[simp] theorem State.setTdiv_v (s : State) (n : Nat) : (s.setTdiv n).v = s.v := rfl
@[simp] theorem State.setTdiv_i (s : State) (n : Nat) : (s.setTdiv n).i = s.i := rfl
@[simp] theorem State.setTdiv_pc (s : State) (n : Nat) : (s.setTdiv n).pc = s.pc := rfl
@[simp] theorem State.setTdiv_stack (s : State) (n : Nat) : (s.setTdiv n).stack = s.stack := rfl
@[simp] theorem State.setTdiv_disp (s : State) (n : Nat) : (s.setTdiv n).disp = s.disp := rfl
@[simp] theorem State.setTdiv_draw (s : State) (n : Nat) : (s.setTdiv n).draw = s.draw := rfl
@[simp] theorem State.setTdiv_key (s : State) (n : Nat) : (s.setTdiv n).key = s.key := rfl
@[simp] theorem State.setTdiv_dt (s : State) (n : Nat) : (s.setTdiv n).dt = s.dt := rfl
@[simp] theorem State.setTdiv_st (s : State) (n : Nat) : (s.setTdiv n).st = s.st := rfl
@[simp] theorem State.setTdiv_tdiv (s : State) (n : Nat) : (s.setTdiv n).tdiv = n := rfl
@[simp] theorem State.setTdiv_err (s : State) (n : Nat) : (s.setTdiv n).err = s.err := rfl
@[simp] theorem State.setTdiv_report (s : State) (n : Nat) : (s.setTdiv n).report = s.report := rfl
@[simp] theorem State.setTdiv_rndCount (s : State) (n : Nat) :
    (s.setTdiv n).rndCount = s.rndCount := rfl
@[simp] theorem State.setTdiv_cfg (s : State) (n : Nat) : (s.setTdiv n).cfg = s.cfg := rfl

@[simp] theorem State.setErr_mem (s : State) (e : BitVec 4) : (s.setErr e).mem = s.mem := rfl
@[simp] theorem State.setErr_v (s : State) (e : BitVec 4) : (s.setErr e).v = s.v := rfl
@[simp] theorem State.setErr_i (s : State) (e : BitVec 4) : (s.setErr e).i = s.i := rfl
@[simp] theorem State.setErr_pc (s : State) (e : BitVec 4) : (s.setErr e).pc = s.pc := rfl
@[simp] theorem State.setErr_stack (s : State) (e : BitVec 4) : (s.setErr e).stack = s.stack := rfl
@[simp] theorem State.setErr_disp (s : State) (e : BitVec 4) : (s.setErr e).disp = s.disp := rfl
@[simp] theorem State.setErr_draw (s : State) (e : BitVec 4) : (s.setErr e).draw = s.draw := rfl
@[simp] theorem State.setErr_key (s : State) (e : BitVec 4) : (s.setErr e).key = s.key := rfl
@[simp] theorem State.setErr_dt (s : State) (e : BitVec 4) : (s.setErr e).dt = s.dt := rfl
@[simp] theorem State.setErr_st (s : State) (e : BitVec 4) : (s.setErr e).st = s.st := rfl
@[simp] theorem State.setErr_tdiv (s : State) (e : BitVec 4) : (s.setErr e).tdiv = s.tdiv := rfl
@[simp] theorem State.setErr_err (s : State) (e : BitVec 4) : (s.setErr e).err = e := rfl
@[simp] theorem State.setErr_report (s : State) (e : BitVec 4) :
    (s.setErr e).report = s.report := rfl
@[simp] theorem State.setErr_rndCount (s : State) (e : BitVec 4) :
    (s.setErr e).rndCount = s.rndCount := rfl
@[simp] theorem State.setErr_cfg (s : State) (e : BitVec 4) : (s.setErr e).cfg = s.cfg := rfl

@[simp] theorem State.setReport_mem (s : State) (r : Report) : (s.setReport r).mem = s.mem := rfl
@[simp] theorem State.setReport_v (s : State) (r : Report) : (s.setReport r).v = s.v := rfl
@[simp] theorem State.setReport_i (s : State) (r : Report) : (s.setReport r).i = s.i := rfl
@[simp] theorem State.setReport_pc (s : State) (r : Report) : (s.setReport r).pc = s.pc := rfl
@[simp] theorem State.setReport_stack (s : State) (r : Report) :
    (s.setReport r).stack = s.stack := rfl
@[simp] theorem State.setReport_disp (s : State) (r : Report) : (s.setReport r).disp = s.disp := rfl
@[simp] theorem State.setReport_draw (s : State) (r : Report) : (s.setReport r).draw = s.draw := rfl
@[simp] theorem State.setReport_key (s : State) (r : Report) : (s.setReport r).key = s.key := rfl
@[simp] theorem State.setReport_dt (s : State) (r : Report) : (s.setReport r).dt = s.dt := rfl
@[simp] theorem State.setReport_st (s : State) (r : Report) : (s.setReport r).st = s.st := rfl
@[simp] theorem State.setReport_tdiv (s : State) (r : Report) : (s.setReport r).tdiv = s.tdiv := rfl
@[simp] theorem State.setReport_err (s : State) (r : Report) : (s.setReport r).err = s.err := rfl
@[simp] theorem State.setReport_report (s : State) (r : Report) : (s.setReport r).report = r := rfl
@[simp] theorem State.setReport_rndCount (s : State) (r : Report) :
    (s.setReport r).rndCount = s.rndCount := rfl
@[simp] theorem State.setReport_cfg (s : State) (r : Report) : (s.setReport r).cfg = s.cfg := rfl

@[simp] theorem State.setRndCount_mem (s : State) (n : Nat) : (s.setRndCount n).mem = s.mem := rfl
@[simp] theorem State.setRndCount_v (s : State) (n : Nat) : (s.setRndCount n).v = s.v := rfl
@[simp] theorem State.setRndCount_i (s : State) (n : Nat) : (s.setRndCount n).i = s.i := rfl
@[simp] theorem State.setRndCount_pc (s : State) (n : Nat) : (s.setRndCount n).pc = s.pc := rfl
@[simp] theorem State.setRndCount_stack (s : State) (n : Nat) :
    (s.setRndCount n).stack = s.stack := rfl
@[simp] theorem State.setRndCount_disp (s : State) (n : Nat) :
    (s.setRndCount n).disp = s.disp := rfl
@[simp] theorem State.setRndCount_draw (s : State) (n : Nat) :
    (s.setRndCount n).draw = s.draw := rfl
@[simp] theorem State.setRndCount_key (s : State) (n : Nat) : (s.setRndCount n).key = s.key := rfl
@[simp] theorem State.setRndCount_dt (s : State) (n : Nat) : (s.setRndCount n).dt = s.dt := rfl
@[simp] theorem State.setRndCount_st (s : State) (n : Nat) : (s.setRndCount n).st = s.st := rfl
@[simp] theorem State.setRndCount_tdiv (s : State) (n : Nat) :
    (s.setRndCount n).tdiv = s.tdiv := rfl
@[simp] theorem State.setRndCount_err (s : State) (n : Nat) : (s.setRndCount n).err = s.err := rfl
@[simp] theorem State.setRndCount_report (s : State) (n : Nat) :
    (s.setRndCount n).report = s.report := rfl
@[simp] theorem State.setRndCount_rndCount (s : State) (n : Nat) :
    (s.setRndCount n).rndCount = n := rfl
@[simp] theorem State.setRndCount_cfg (s : State) (n : Nat) : (s.setRndCount n).cfg = s.cfg := rfl

/-! ## Registers, memory bytes, keys and the stack top under the named updates -/

@[simp] theorem State.setMem_reg (s : State) (m : Memory) (z : Nibble) :
    (s.setMem m).reg z = s.reg z := rfl
@[simp] theorem State.setMem_keyDown (s : State) (m : Memory) (z : Nibble) :
    (s.setMem m).keyDown z = s.keyDown z := rfl
@[simp] theorem State.setMem_top (s : State) (m : Memory) : (s.setMem m).top = s.top := rfl
@[simp] theorem State.setV_memRead (s : State) (w : Vector Byte 16) (q : Nat) :
    (s.setV w).memRead q = s.memRead q := rfl
@[simp] theorem State.setV_memReadBytes (s : State) (w : Vector Byte 16) (q len : Nat) :
    (s.setV w).memReadBytes q len = s.memReadBytes q len := rfl
@[simp] theorem State.setV_keyDown (s : State) (w : Vector Byte 16) (z : Nibble) :
    (s.setV w).keyDown z = s.keyDown z := rfl
@[simp] theorem State.setV_top (s : State) (w : Vector Byte 16) : (s.setV w).top = s.top := rfl
@[simp] theorem State.setI_reg (s : State) (a : Addr) (z : Nibble) :
    (s.setI a).reg z = s.reg z := rfl
@[simp] theorem State.setI_memRead (s : State) (a : Addr) (q : Nat) :
    (s.setI a).memRead q = s.memRead q := rfl
@[simp] theorem State.setI_memReadBytes (s : State) (a : Addr) (q len : Nat) :
    (s.setI a).memReadBytes q len = s.memReadBytes q len := rfl
@[simp] theorem State.setI_keyDown (s : State) (a : Addr) (z : Nibble) :
    (s.setI a).keyDown z = s.keyDown z := rfl
@[simp] theorem State.setI_top (s : State) (a : Addr) : (s.setI a).top = s.top := rfl
@[simp] theorem State.setPc_reg (s : State) (a : Addr) (z : Nibble) :
    (s.setPc a).reg z = s.reg z := rfl
@[simp] theorem State.setPc_memRead (s : State) (a : Addr) (q : Nat) :
    (s.setPc a).memRead q = s.memRead q := rfl
@[simp] theorem State.setPc_memReadBytes (s : State) (a : Addr) (q len : Nat) :
    (s.setPc a).memReadBytes q len = s.memReadBytes q len := rfl
@[simp] theorem State.setPc_keyDown (s : State) (a : Addr) (z : Nibble) :
    (s.setPc a).keyDown z = s.keyDown z := rfl
@[simp] theorem State.setPc_top (s : State) (a : Addr) : (s.setPc a).top = s.top := rfl
@[simp] theorem State.setStack_reg (s : State) (l : List Addr) (z : Nibble) :
    (s.setStack l).reg z = s.reg z := rfl
@[simp] theorem State.setStack_memRead (s : State) (l : List Addr) (q : Nat) :
    (s.setStack l).memRead q = s.memRead q := rfl
@[simp] theorem State.setStack_memReadBytes (s : State) (l : List Addr) (q len : Nat) :
    (s.setStack l).memReadBytes q len = s.memReadBytes q len := rfl
@[simp] theorem State.setStack_keyDown (s : State) (l : List Addr) (z : Nibble) :
    (s.setStack l).keyDown z = s.keyDown z := rfl
@[simp] theorem State.setDisp_reg (s : State) (d : Display) (z : Nibble) :
    (s.setDisp d).reg z = s.reg z := rfl
@[simp] theorem State.setDisp_memRead (s : State) (d : Display) (q : Nat) :
    (s.setDisp d).memRead q = s.memRead q := rfl
@[simp] theorem State.setDisp_memReadBytes (s : State) (d : Display) (q len : Nat) :
    (s.setDisp d).memReadBytes q len = s.memReadBytes q len := rfl
@[simp] theorem State.setDisp_keyDown (s : State) (d : Display) (z : Nibble) :
    (s.setDisp d).keyDown z = s.keyDown z := rfl
@[simp] theorem State.setDisp_top (s : State) (d : Display) : (s.setDisp d).top = s.top := rfl
@[simp] theorem State.setDraw_reg (s : State) (b : Bool) (z : Nibble) :
    (s.setDraw b).reg z = s.reg z := rfl
@[simp] theorem State.setDraw_memRead (s : State) (b : Bool) (q : Nat) :
    (s.setDraw b).memRead q = s.memRead q := rfl
@[simp] theorem State.setDraw_memReadBytes (s : State) (b : Bool) (q len : Nat) :
    (s.setDraw b).memReadBytes q len = s.memReadBytes q len := rfl
@[simp] theorem State.setDraw_keyDown (s : State) (b : Bool) (z : Nibble) :
    (s.setDraw b).keyDown z = s.keyDown z := rfl
@[simp] theorem State.setDraw_top (s : State) (b : Bool) : (s.setDraw b).top = s.top := rfl
@[simp] theorem State.setKey_reg (s : State) (k : Vector Bool 16) (z : Nibble) :
    (s.setKey k).reg z = s.reg z := rfl
@[simp] theorem State.setKey_memRead (s : State) (k : Vector Bool 16) (q : Nat) :
    (s.setKey k).memRead q = s.memRead q := rfl
@[simp] theorem State.setKey_memReadBytes (s : State) (k : Vector Bool 16) (q len : Nat) :
    (s.setKey k).memReadBytes q len = s.memReadBytes q len := rfl
@[simp] theorem State.setKey_top (s : State) (k : Vector Bool 16) : (s.setKey k).top = s.top := rfl
@[simp] theorem State.setDt_reg (s : State) (b : Byte) (z : Nibble) :
    (s.setDt b).reg z = s.reg z := rfl
@[simp] theorem State.setDt_memRead (s : State) (b : Byte) (q : Nat) :
    (s.setDt b).memRead q = s.memRead q := rfl
@[simp] theorem State.setDt_memReadBytes (s : State) (b : Byte) (q len : Nat) :
    (s.setDt b).memReadBytes q len = s.memReadBytes q len := rfl
@[simp] theorem State.setDt_keyDown (s : State) (b : Byte) (z : Nibble) :
    (s.setDt b).keyDown z = s.keyDown z := rfl
@[simp] theorem State.setDt_top (s : State) (b : Byte) : (s.setDt b).top = s.top := rfl
@[simp] theorem State.setSt_reg (s : State) (b : Byte) (z : Nibble) :
    (s.setSt b).reg z = s.reg z := rfl
@[simp] theorem State.setSt_memRead (s : State) (b : Byte) (q : Nat) :
    (s.setSt b).memRead q = s.memRead q := rfl
@[simp] theorem State.setSt_memReadBytes (s : State) (b : Byte) (q len : Nat) :
    (s.setSt b).memReadBytes q len = s.memReadBytes q len := rfl
@[simp] theorem State.setSt_keyDown (s : State) (b : Byte) (z : Nibble) :
    (s.setSt b).keyDown z = s.keyDown z := rfl
@[simp] theorem State.setSt_top (s : State) (b : Byte) : (s.setSt b).top = s.top := rfl
@[simp] theorem State.setTdiv_reg (s : State) (n : Nat) (z : Nibble) :
    (s.setTdiv n).reg z = s.reg z := rfl
@[simp] theorem State.setTdiv_memRead (s : State) (n : Nat) (q : Nat) :
    (s.setTdiv n).memRead q = s.memRead q := rfl
@[simp] theorem State.setTdiv_memReadBytes (s : State) (n : Nat) (q len : Nat) :
    (s.setTdiv n).memReadBytes q len = s.memReadBytes q len := rfl
@[simp] theorem State.setTdiv_keyDown (s : State) (n : Nat) (z : Nibble) :
    (s.setTdiv n).keyDown z = s.keyDown z := rfl
@[simp] theorem State.setTdiv_top (s : State) (n : Nat) : (s.setTdiv n).top = s.top := rfl
@[simp] theorem State.setErr_reg (s : State) (e : BitVec 4) (z : Nibble) :
    (s.setErr e).reg z = s.reg z := rfl
@[simp] theorem State.setErr_memRead (s : State) (e : BitVec 4) (q : Nat) :
    (s.setErr e).memRead q = s.memRead q := rfl
@[simp] theorem State.setErr_memReadBytes (s : State) (e : BitVec 4) (q len : Nat) :
    (s.setErr e).memReadBytes q len = s.memReadBytes q len := rfl
@[simp] theorem State.setErr_keyDown (s : State) (e : BitVec 4) (z : Nibble) :
    (s.setErr e).keyDown z = s.keyDown z := rfl
@[simp] theorem State.setErr_top (s : State) (e : BitVec 4) : (s.setErr e).top = s.top := rfl
@[simp] theorem State.setReport_reg (s : State) (r : Report) (z : Nibble) :
    (s.setReport r).reg z = s.reg z := rfl
@[simp] theorem State.setReport_memRead (s : State) (r : Report) (q : Nat) :
    (s.setReport r).memRead q = s.memRead q := rfl
@[simp] theorem State.setReport_memReadBytes (s : State) (r : Report) (q len : Nat) :
    (s.setReport r).memReadBytes q len = s.memReadBytes q len := rfl
@[simp] theorem State.setReport_keyDown (s : State) (r : Report) (z : Nibble) :
    (s.setReport r).keyDown z = s.keyDown z := rfl
@[simp] theorem State.setReport_top (s : State) (r : Report) : (s.setReport r).top = s.top := rfl
@[simp] theorem State.setRndCount_reg (s : State) (n : Nat) (z : Nibble) :
    (s.setRndCount n).reg z = s.reg z := rfl
@[simp] theorem State.setRndCount_memRead (s : State) (n : Nat) (q : Nat) :
    (s.setRndCount n).memRead q = s.memRead q := rfl
@[simp] theorem State.setRndCount_memReadBytes (s : State) (n : Nat) (q len : Nat) :
    (s.setRndCount n).memReadBytes q len = s.memReadBytes q len := rfl
@[simp] theorem State.setRndCount_keyDown (s : State) (n : Nat) (z : Nibble) :
    (s.setRndCount n).keyDown z = s.keyDown z := rfl
@[simp] theorem State.setRndCount_top (s : State) (n : Nat) : (s.setRndCount n).top = s.top := rfl

/-! ## The shared operations, field by field -/

@[simp] theorem State.setReg_mem (s : State) (x : Nibble) (b : Byte) :
    (s.setReg x b).mem = s.mem := rfl
@[simp] theorem State.setReg_i (s : State) (x : Nibble) (b : Byte) : (s.setReg x b).i = s.i := rfl
@[simp] theorem State.setReg_pc (s : State) (x : Nibble) (b : Byte) :
    (s.setReg x b).pc = s.pc := rfl
@[simp] theorem State.setReg_stack (s : State) (x : Nibble) (b : Byte) :
    (s.setReg x b).stack = s.stack := rfl
@[simp] theorem State.setReg_disp (s : State) (x : Nibble) (b : Byte) :
    (s.setReg x b).disp = s.disp := rfl
@[simp] theorem State.setReg_draw (s : State) (x : Nibble) (b : Byte) :
    (s.setReg x b).draw = s.draw := rfl
@[simp] theorem State.setReg_key (s : State) (x : Nibble) (b : Byte) :
    (s.setReg x b).key = s.key := rfl
@[simp] theorem State.setReg_dt (s : State) (x : Nibble) (b : Byte) :
    (s.setReg x b).dt = s.dt := rfl
@[simp] theorem State.setReg_st (s : State) (x : Nibble) (b : Byte) :
    (s.setReg x b).st = s.st := rfl
@[simp] theorem State.setReg_tdiv (s : State) (x : Nibble) (b : Byte) :
    (s.setReg x b).tdiv = s.tdiv := rfl
@[simp] theorem State.setReg_err (s : State) (x : Nibble) (b : Byte) :
    (s.setReg x b).err = s.err := rfl
@[simp] theorem State.setReg_report (s : State) (x : Nibble) (b : Byte) :
    (s.setReg x b).report = s.report := rfl
@[simp] theorem State.setReg_rndCount (s : State) (x : Nibble) (b : Byte) :
    (s.setReg x b).rndCount = s.rndCount := rfl
@[simp] theorem State.setReg_cfg (s : State) (x : Nibble) (b : Byte) :
    (s.setReg x b).cfg = s.cfg := rfl
@[simp] theorem State.setReg_memRead (s : State) (x : Nibble) (b : Byte) (q : Nat) :
    (s.setReg x b).memRead q = s.memRead q := rfl
@[simp] theorem State.setReg_keyDown (s : State) (x : Nibble) (b : Byte) (z : Nibble) :
    (s.setReg x b).keyDown z = s.keyDown z := rfl

@[simp] theorem State.memWriteBytes_v (s : State) (a : Nat) (bs : List Byte) :
    (s.memWriteBytes a bs).v = s.v := rfl
@[simp] theorem State.memWriteBytes_i (s : State) (a : Nat) (bs : List Byte) :
    (s.memWriteBytes a bs).i = s.i := rfl
@[simp] theorem State.memWriteBytes_pc (s : State) (a : Nat) (bs : List Byte) :
    (s.memWriteBytes a bs).pc = s.pc := rfl
@[simp] theorem State.memWriteBytes_stack (s : State) (a : Nat) (bs : List Byte) :
    (s.memWriteBytes a bs).stack = s.stack := rfl
@[simp] theorem State.memWriteBytes_disp (s : State) (a : Nat) (bs : List Byte) :
    (s.memWriteBytes a bs).disp = s.disp := rfl
@[simp] theorem State.memWriteBytes_draw (s : State) (a : Nat) (bs : List Byte) :
    (s.memWriteBytes a bs).draw = s.draw := rfl
@[simp] theorem State.memWriteBytes_key (s : State) (a : Nat) (bs : List Byte) :
    (s.memWriteBytes a bs).key = s.key := rfl
@[simp] theorem State.memWriteBytes_dt (s : State) (a : Nat) (bs : List Byte) :
    (s.memWriteBytes a bs).dt = s.dt := rfl
@[simp] theorem State.memWriteBytes_st (s : State) (a : Nat) (bs : List Byte) :
    (s.memWriteBytes a bs).st = s.st := rfl
@[simp] theorem State.memWriteBytes_tdiv (s : State) (a : Nat) (bs : List Byte) :
    (s.memWriteBytes a bs).tdiv = s.tdiv := rfl
@[simp] theorem State.memWriteBytes_err (s : State) (a : Nat) (bs : List Byte) :
    (s.memWriteBytes a bs).err = s.err := rfl
@[simp] theorem State.memWriteBytes_report (s : State) (a : Nat) (bs : List Byte) :
    (s.memWriteBytes a bs).report = s.report := rfl
@[simp] theorem State.memWriteBytes_rndCount (s : State) (a : Nat) (bs : List Byte) :
    (s.memWriteBytes a bs).rndCount = s.rndCount := rfl
@[simp] theorem State.memWriteBytes_cfg (s : State) (a : Nat) (bs : List Byte) :
    (s.memWriteBytes a bs).cfg = s.cfg := rfl
@[simp] theorem State.memWriteBytes_reg (s : State) (a : Nat) (bs : List Byte) (z : Nibble) :
    (s.memWriteBytes a bs).reg z = s.reg z := rfl
@[simp] theorem State.memWriteBytes_keyDown (s : State) (a : Nat) (bs : List Byte) (z : Nibble) :
    (s.memWriteBytes a bs).keyDown z = s.keyDown z := rfl

@[simp] theorem State.push_mem (s : State) (a : Addr) : (s.push a).mem = s.mem := rfl
@[simp] theorem State.push_v (s : State) (a : Addr) : (s.push a).v = s.v := rfl
@[simp] theorem State.push_i (s : State) (a : Addr) : (s.push a).i = s.i := rfl
@[simp] theorem State.push_pc (s : State) (a : Addr) : (s.push a).pc = s.pc := rfl
@[simp] theorem State.push_disp (s : State) (a : Addr) : (s.push a).disp = s.disp := rfl
@[simp] theorem State.push_draw (s : State) (a : Addr) : (s.push a).draw = s.draw := rfl
@[simp] theorem State.push_key (s : State) (a : Addr) : (s.push a).key = s.key := rfl
@[simp] theorem State.push_dt (s : State) (a : Addr) : (s.push a).dt = s.dt := rfl
@[simp] theorem State.push_st (s : State) (a : Addr) : (s.push a).st = s.st := rfl
@[simp] theorem State.push_tdiv (s : State) (a : Addr) : (s.push a).tdiv = s.tdiv := rfl
@[simp] theorem State.push_err (s : State) (a : Addr) : (s.push a).err = s.err := rfl
@[simp] theorem State.push_report (s : State) (a : Addr) : (s.push a).report = s.report := rfl
@[simp] theorem State.push_rndCount (s : State) (a : Addr) : (s.push a).rndCount = s.rndCount := rfl
@[simp] theorem State.push_cfg (s : State) (a : Addr) : (s.push a).cfg = s.cfg := rfl
@[simp] theorem State.push_reg (s : State) (a : Addr) (z : Nibble) :
    (s.push a).reg z = s.reg z := rfl
@[simp] theorem State.push_memRead (s : State) (a : Addr) (q : Nat) :
    (s.push a).memRead q = s.memRead q := rfl
@[simp] theorem State.push_keyDown (s : State) (a : Addr) (z : Nibble) :
    (s.push a).keyDown z = s.keyDown z := rfl

@[simp] theorem State.dropTop_mem (s : State) : s.dropTop.mem = s.mem := rfl
@[simp] theorem State.dropTop_v (s : State) : s.dropTop.v = s.v := rfl
@[simp] theorem State.dropTop_i (s : State) : s.dropTop.i = s.i := rfl
@[simp] theorem State.dropTop_pc (s : State) : s.dropTop.pc = s.pc := rfl
@[simp] theorem State.dropTop_disp (s : State) : s.dropTop.disp = s.disp := rfl
@[simp] theorem State.dropTop_draw (s : State) : s.dropTop.draw = s.draw := rfl
@[simp] theorem State.dropTop_key (s : State) : s.dropTop.key = s.key := rfl
@[simp] theorem State.dropTop_dt (s : State) : s.dropTop.dt = s.dt := rfl
@[simp] theorem State.dropTop_st (s : State) : s.dropTop.st = s.st := rfl
@[simp] theorem State.dropTop_tdiv (s : State) : s.dropTop.tdiv = s.tdiv := rfl
@[simp] theorem State.dropTop_err (s : State) : s.dropTop.err = s.err := rfl
@[simp] theorem State.dropTop_report (s : State) : s.dropTop.report = s.report := rfl
@[simp] theorem State.dropTop_rndCount (s : State) : s.dropTop.rndCount = s.rndCount := rfl
@[simp] theorem State.dropTop_cfg (s : State) : s.dropTop.cfg = s.cfg := rfl
@[simp] theorem State.dropTop_reg (s : State) (z : Nibble) : s.dropTop.reg z = s.reg z := rfl
@[simp] theorem State.dropTop_memRead (s : State) (q : Nat) :
    s.dropTop.memRead q = s.memRead q := rfl
@[simp] theorem State.dropTop_keyDown (s : State) (z : Nibble) :
    s.dropTop.keyDown z = s.keyDown z := rfl

@[simp] theorem State.raise_mem (s : State) (c : Condition) (a : Nat) :
    (s.raise c a).mem = s.mem := rfl
@[simp] theorem State.raise_v (s : State) (c : Condition) (a : Nat) : (s.raise c a).v = s.v := rfl
@[simp] theorem State.raise_i (s : State) (c : Condition) (a : Nat) : (s.raise c a).i = s.i := rfl
@[simp] theorem State.raise_pc (s : State) (c : Condition) (a : Nat) :
    (s.raise c a).pc = s.pc := rfl
@[simp] theorem State.raise_stack (s : State) (c : Condition) (a : Nat) :
    (s.raise c a).stack = s.stack := rfl
@[simp] theorem State.raise_disp (s : State) (c : Condition) (a : Nat) :
    (s.raise c a).disp = s.disp := rfl
@[simp] theorem State.raise_draw (s : State) (c : Condition) (a : Nat) :
    (s.raise c a).draw = s.draw := rfl
@[simp] theorem State.raise_key (s : State) (c : Condition) (a : Nat) :
    (s.raise c a).key = s.key := rfl
@[simp] theorem State.raise_dt (s : State) (c : Condition) (a : Nat) :
    (s.raise c a).dt = s.dt := rfl
@[simp] theorem State.raise_st (s : State) (c : Condition) (a : Nat) :
    (s.raise c a).st = s.st := rfl
@[simp] theorem State.raise_tdiv (s : State) (c : Condition) (a : Nat) :
    (s.raise c a).tdiv = s.tdiv := rfl
@[simp] theorem State.raise_rndCount (s : State) (c : Condition) (a : Nat) :
    (s.raise c a).rndCount = s.rndCount := rfl
@[simp] theorem State.raise_cfg (s : State) (c : Condition) (a : Nat) :
    (s.raise c a).cfg = s.cfg := rfl
@[simp] theorem State.raise_reg (s : State) (c : Condition) (a : Nat) (z : Nibble) :
    (s.raise c a).reg z = s.reg z := rfl
@[simp] theorem State.raise_memRead (s : State) (c : Condition) (a : Nat) (q : Nat) :
    (s.raise c a).memRead q = s.memRead q := rfl
@[simp] theorem State.raise_keyDown (s : State) (c : Condition) (a : Nat) (z : Nibble) :
    (s.raise c a).keyDown z = s.keyDown z := rfl

@[simp] theorem State.preAdvance_mem (s : State) (iw : Word) : (s.preAdvance iw).mem = s.mem := rfl
@[simp] theorem State.preAdvance_v (s : State) (iw : Word) : (s.preAdvance iw).v = s.v := rfl
@[simp] theorem State.preAdvance_i (s : State) (iw : Word) : (s.preAdvance iw).i = s.i := rfl
@[simp] theorem State.preAdvance_stack (s : State) (iw : Word) :
    (s.preAdvance iw).stack = s.stack := rfl
@[simp] theorem State.preAdvance_disp (s : State) (iw : Word) :
    (s.preAdvance iw).disp = s.disp := rfl
@[simp] theorem State.preAdvance_draw (s : State) (iw : Word) :
    (s.preAdvance iw).draw = s.draw := rfl
@[simp] theorem State.preAdvance_key (s : State) (iw : Word) : (s.preAdvance iw).key = s.key := rfl
@[simp] theorem State.preAdvance_dt (s : State) (iw : Word) : (s.preAdvance iw).dt = s.dt := rfl
@[simp] theorem State.preAdvance_st (s : State) (iw : Word) : (s.preAdvance iw).st = s.st := rfl
@[simp] theorem State.preAdvance_tdiv (s : State) (iw : Word) :
    (s.preAdvance iw).tdiv = s.tdiv := rfl
@[simp] theorem State.preAdvance_err (s : State) (iw : Word) : (s.preAdvance iw).err = s.err := rfl
@[simp] theorem State.preAdvance_rndCount (s : State) (iw : Word) :
    (s.preAdvance iw).rndCount = s.rndCount := rfl
@[simp] theorem State.preAdvance_cfg (s : State) (iw : Word) : (s.preAdvance iw).cfg = s.cfg := rfl
@[simp] theorem State.preAdvance_reg (s : State) (iw : Word) (z : Nibble) :
    (s.preAdvance iw).reg z = s.reg z := rfl
@[simp] theorem State.preAdvance_memRead (s : State) (iw : Word) (q : Nat) :
    (s.preAdvance iw).memRead q = s.memRead q := rfl
@[simp] theorem State.preAdvance_keyDown (s : State) (iw : Word) (z : Nibble) :
    (s.preAdvance iw).keyDown z = s.keyDown z := rfl

@[simp] theorem State.flagThenResult_mem (s : State) (x : Nibble) (b : Byte) (f : Bool) :
    (s.flagThenResult x b f).mem = s.mem := rfl
@[simp] theorem State.flagThenResult_i (s : State) (x : Nibble) (b : Byte) (f : Bool) :
    (s.flagThenResult x b f).i = s.i := rfl
@[simp] theorem State.flagThenResult_pc (s : State) (x : Nibble) (b : Byte) (f : Bool) :
    (s.flagThenResult x b f).pc = s.pc := rfl
@[simp] theorem State.flagThenResult_stack (s : State) (x : Nibble) (b : Byte) (f : Bool) :
    (s.flagThenResult x b f).stack = s.stack := rfl
@[simp] theorem State.flagThenResult_disp (s : State) (x : Nibble) (b : Byte) (f : Bool) :
    (s.flagThenResult x b f).disp = s.disp := rfl
@[simp] theorem State.flagThenResult_draw (s : State) (x : Nibble) (b : Byte) (f : Bool) :
    (s.flagThenResult x b f).draw = s.draw := rfl
@[simp] theorem State.flagThenResult_key (s : State) (x : Nibble) (b : Byte) (f : Bool) :
    (s.flagThenResult x b f).key = s.key := rfl
@[simp] theorem State.flagThenResult_dt (s : State) (x : Nibble) (b : Byte) (f : Bool) :
    (s.flagThenResult x b f).dt = s.dt := rfl
@[simp] theorem State.flagThenResult_st (s : State) (x : Nibble) (b : Byte) (f : Bool) :
    (s.flagThenResult x b f).st = s.st := rfl
@[simp] theorem State.flagThenResult_tdiv (s : State) (x : Nibble) (b : Byte) (f : Bool) :
    (s.flagThenResult x b f).tdiv = s.tdiv := rfl
@[simp] theorem State.flagThenResult_err (s : State) (x : Nibble) (b : Byte) (f : Bool) :
    (s.flagThenResult x b f).err = s.err := rfl
@[simp] theorem State.flagThenResult_report (s : State) (x : Nibble) (b : Byte) (f : Bool) :
    (s.flagThenResult x b f).report = s.report := rfl
@[simp] theorem State.flagThenResult_rndCount (s : State) (x : Nibble) (b : Byte) (f : Bool) :
    (s.flagThenResult x b f).rndCount = s.rndCount := rfl
@[simp] theorem State.flagThenResult_cfg (s : State) (x : Nibble) (b : Byte) (f : Bool) :
    (s.flagThenResult x b f).cfg = s.cfg := rfl
@[simp] theorem State.flagThenResult_memRead (s : State) (x : Nibble) (b : Byte) (f : Bool) (q : Nat) :
    (s.flagThenResult x b f).memRead q = s.memRead q := rfl
@[simp] theorem State.flagThenResult_keyDown (s : State) (x : Nibble) (b : Byte) (f : Bool) (z : Nibble) :
    (s.flagThenResult x b f).keyDown z = s.keyDown z := rfl

@[simp] theorem State.resultThenFlag_mem (s : State) (x : Nibble) (b : Byte) (f : Bool) :
    (s.resultThenFlag x b f).mem = s.mem := rfl
@[simp] theorem State.resultThenFlag_i (s : State) (x : Nibble) (b : Byte) (f : Bool) :
    (s.resultThenFlag x b f).i = s.i := rfl
@[simp] theorem State.resultThenFlag_pc (s : State) (x : Nibble) (b : Byte) (f : Bool) :
    (s.resultThenFlag x b f).pc = s.pc := rfl
@[simp] theorem State.resultThenFlag_stack (s : State) (x : Nibble) (b : Byte) (f : Bool) :
    (s.resultThenFlag x b f).stack = s.stack := rfl
@[simp] theorem State.resultThenFlag_disp (s : State) (x : Nibble) (b : Byte) (f : Bool) :
    (s.resultThenFlag x b f).disp = s.disp := rfl
@[simp] theorem State.resultThenFlag_draw (s : State) (x : Nibble) (b : Byte) (f : Bool) :
    (s.resultThenFlag x b f).draw = s.draw := rfl
@[simp] theorem State.resultThenFlag_key (s : State) (x : Nibble) (b : Byte) (f : Bool) :
    (s.resultThenFlag x b f).key = s.key := rfl
@[simp] theorem State.resultThenFlag_dt (s : State) (x : Nibble) (b : Byte) (f : Bool) :
    (s.resultThenFlag x b f).dt = s.dt := rfl
@[simp] theorem State.resultThenFlag_st (s : State) (x : Nibble) (b : Byte) (f : Bool) :
    (s.resultThenFlag x b f).st = s.st := rfl
@[simp] theorem State.resultThenFlag_tdiv (s : State) (x : Nibble) (b : Byte) (f : Bool) :
    (s.resultThenFlag x b f).tdiv = s.tdiv := rfl
@[simp] theorem State.resultThenFlag_err (s : State) (x : Nibble) (b : Byte) (f : Bool) :
    (s.resultThenFlag x b f).err = s.err := rfl
@[simp] theorem State.resultThenFlag_report (s : State) (x : Nibble) (b : Byte) (f : Bool) :
    (s.resultThenFlag x b f).report = s.report := rfl
@[simp] theorem State.resultThenFlag_rndCount (s : State) (x : Nibble) (b : Byte) (f : Bool) :
    (s.resultThenFlag x b f).rndCount = s.rndCount := rfl
@[simp] theorem State.resultThenFlag_cfg (s : State) (x : Nibble) (b : Byte) (f : Bool) :
    (s.resultThenFlag x b f).cfg = s.cfg := rfl
@[simp] theorem State.resultThenFlag_memRead (s : State) (x : Nibble) (b : Byte) (f : Bool) (q : Nat) :
    (s.resultThenFlag x b f).memRead q = s.memRead q := rfl
@[simp] theorem State.resultThenFlag_keyDown (s : State) (x : Nibble) (b : Byte) (f : Bool) (z : Nibble) :
    (s.resultThenFlag x b f).keyDown z = s.keyDown z := rfl

@[simp] theorem State.raise_err (s : State) (c : Condition) (a : Nat) :
    (s.raise c a).err = s.err ||| c.errBit := rfl
@[simp] theorem State.raise_report (s : State) (c : Condition) (a : Nat) :
    (s.raise c a).report = { s.report with code := c, addr := BitVec.ofNat 13 a } := rfl
@[simp] theorem State.preAdvance_pc (s : State) (iw : Word) : (s.preAdvance iw).pc = s.pc + 2 := rfl
@[simp] theorem State.preAdvance_report (s : State) (iw : Word) :
    (s.preAdvance iw).report = { code := .noCondition, iaddr := s.pc, word := iw, addr := 0#13 } := rfl
@[simp] theorem State.push_stack (s : State) (a : Addr) : (s.push a).stack = s.stack ++ [a] := rfl
@[simp] theorem State.dropTop_stack (s : State) : s.dropTop.stack = s.stack.dropLast := rfl

/-! ## The operations with a case in them: skip, tick and bounds -/

@[simp] theorem State.skipIf_mem (s : State) (c : Bool) :
    (s.skipIf c).mem = s.mem := by unfold State.skipIf; split <;> rfl
@[simp] theorem State.skipIf_v (s : State) (c : Bool) :
    (s.skipIf c).v = s.v := by unfold State.skipIf; split <;> rfl
@[simp] theorem State.skipIf_i (s : State) (c : Bool) :
    (s.skipIf c).i = s.i := by unfold State.skipIf; split <;> rfl
@[simp] theorem State.skipIf_stack (s : State) (c : Bool) :
    (s.skipIf c).stack = s.stack := by unfold State.skipIf; split <;> rfl
@[simp] theorem State.skipIf_disp (s : State) (c : Bool) :
    (s.skipIf c).disp = s.disp := by unfold State.skipIf; split <;> rfl
@[simp] theorem State.skipIf_draw (s : State) (c : Bool) :
    (s.skipIf c).draw = s.draw := by unfold State.skipIf; split <;> rfl
@[simp] theorem State.skipIf_key (s : State) (c : Bool) :
    (s.skipIf c).key = s.key := by unfold State.skipIf; split <;> rfl
@[simp] theorem State.skipIf_dt (s : State) (c : Bool) :
    (s.skipIf c).dt = s.dt := by unfold State.skipIf; split <;> rfl
@[simp] theorem State.skipIf_st (s : State) (c : Bool) :
    (s.skipIf c).st = s.st := by unfold State.skipIf; split <;> rfl
@[simp] theorem State.skipIf_tdiv (s : State) (c : Bool) :
    (s.skipIf c).tdiv = s.tdiv := by unfold State.skipIf; split <;> rfl
@[simp] theorem State.skipIf_err (s : State) (c : Bool) :
    (s.skipIf c).err = s.err := by unfold State.skipIf; split <;> rfl
@[simp] theorem State.skipIf_report (s : State) (c : Bool) :
    (s.skipIf c).report = s.report := by unfold State.skipIf; split <;> rfl
@[simp] theorem State.skipIf_rndCount (s : State) (c : Bool) :
    (s.skipIf c).rndCount = s.rndCount := by unfold State.skipIf; split <;> rfl
@[simp] theorem State.skipIf_cfg (s : State) (c : Bool) :
    (s.skipIf c).cfg = s.cfg := by unfold State.skipIf; split <;> rfl

@[simp] theorem State.timerTick_mem (s : State) :
    s.timerTick.mem = s.mem := by unfold State.timerTick; split <;> rfl
@[simp] theorem State.timerTick_v (s : State) :
    s.timerTick.v = s.v := by unfold State.timerTick; split <;> rfl
@[simp] theorem State.timerTick_i (s : State) :
    s.timerTick.i = s.i := by unfold State.timerTick; split <;> rfl
@[simp] theorem State.timerTick_pc (s : State) :
    s.timerTick.pc = s.pc := by unfold State.timerTick; split <;> rfl
@[simp] theorem State.timerTick_stack (s : State) :
    s.timerTick.stack = s.stack := by unfold State.timerTick; split <;> rfl
@[simp] theorem State.timerTick_disp (s : State) :
    s.timerTick.disp = s.disp := by unfold State.timerTick; split <;> rfl
@[simp] theorem State.timerTick_draw (s : State) :
    s.timerTick.draw = s.draw := by unfold State.timerTick; split <;> rfl
@[simp] theorem State.timerTick_key (s : State) :
    s.timerTick.key = s.key := by unfold State.timerTick; split <;> rfl
@[simp] theorem State.timerTick_err (s : State) :
    s.timerTick.err = s.err := by unfold State.timerTick; split <;> rfl
@[simp] theorem State.timerTick_report (s : State) :
    s.timerTick.report = s.report := by unfold State.timerTick; split <;> rfl
@[simp] theorem State.timerTick_rndCount (s : State) :
    s.timerTick.rndCount = s.rndCount := by unfold State.timerTick; split <;> rfl
@[simp] theorem State.timerTick_cfg (s : State) :
    s.timerTick.cfg = s.cfg := by unfold State.timerTick; split <;> rfl

@[simp] theorem State.finishCycle_mem (s : State) :
    s.finishCycle.mem = s.mem := by simp [State.finishCycle]
@[simp] theorem State.finishCycle_v (s : State) :
    s.finishCycle.v = s.v := by simp [State.finishCycle]
@[simp] theorem State.finishCycle_i (s : State) :
    s.finishCycle.i = s.i := by simp [State.finishCycle]
@[simp] theorem State.finishCycle_pc (s : State) :
    s.finishCycle.pc = s.pc := by simp [State.finishCycle]
@[simp] theorem State.finishCycle_stack (s : State) :
    s.finishCycle.stack = s.stack := by simp [State.finishCycle]
@[simp] theorem State.finishCycle_disp (s : State) :
    s.finishCycle.disp = s.disp := by simp [State.finishCycle]
@[simp] theorem State.finishCycle_draw (s : State) :
    s.finishCycle.draw = s.draw := by simp [State.finishCycle]
@[simp] theorem State.finishCycle_key (s : State) :
    s.finishCycle.key = s.key := by simp [State.finishCycle]
@[simp] theorem State.finishCycle_err (s : State) :
    s.finishCycle.err = s.err := by simp [State.finishCycle]
@[simp] theorem State.finishCycle_report (s : State) :
    s.finishCycle.report = s.report := by simp [State.finishCycle]
@[simp] theorem State.finishCycle_cfg (s : State) :
    s.finishCycle.cfg = s.cfg := by simp [State.finishCycle]

@[simp] theorem State.ifInBounds_mem (s e : State) (h : Nat) :
    (s.ifInBounds h e).mem = if 0xFFF < h then (s.raise .outOfBounds h).mem else e.mem :=
  by unfold State.ifInBounds; split <;> rfl
@[simp] theorem State.ifInBounds_v (s e : State) (h : Nat) :
    (s.ifInBounds h e).v = if 0xFFF < h then (s.raise .outOfBounds h).v else e.v :=
  by unfold State.ifInBounds; split <;> rfl
@[simp] theorem State.ifInBounds_i (s e : State) (h : Nat) :
    (s.ifInBounds h e).i = if 0xFFF < h then (s.raise .outOfBounds h).i else e.i :=
  by unfold State.ifInBounds; split <;> rfl
@[simp] theorem State.ifInBounds_pc (s e : State) (h : Nat) :
    (s.ifInBounds h e).pc = if 0xFFF < h then (s.raise .outOfBounds h).pc else e.pc :=
  by unfold State.ifInBounds; split <;> rfl
@[simp] theorem State.ifInBounds_stack (s e : State) (h : Nat) :
    (s.ifInBounds h e).stack = if 0xFFF < h then (s.raise .outOfBounds h).stack else e.stack :=
  by unfold State.ifInBounds; split <;> rfl
@[simp] theorem State.ifInBounds_disp (s e : State) (h : Nat) :
    (s.ifInBounds h e).disp = if 0xFFF < h then (s.raise .outOfBounds h).disp else e.disp :=
  by unfold State.ifInBounds; split <;> rfl
@[simp] theorem State.ifInBounds_draw (s e : State) (h : Nat) :
    (s.ifInBounds h e).draw = if 0xFFF < h then (s.raise .outOfBounds h).draw else e.draw :=
  by unfold State.ifInBounds; split <;> rfl
@[simp] theorem State.ifInBounds_key (s e : State) (h : Nat) :
    (s.ifInBounds h e).key = if 0xFFF < h then (s.raise .outOfBounds h).key else e.key :=
  by unfold State.ifInBounds; split <;> rfl
@[simp] theorem State.ifInBounds_dt (s e : State) (h : Nat) :
    (s.ifInBounds h e).dt = if 0xFFF < h then (s.raise .outOfBounds h).dt else e.dt :=
  by unfold State.ifInBounds; split <;> rfl
@[simp] theorem State.ifInBounds_st (s e : State) (h : Nat) :
    (s.ifInBounds h e).st = if 0xFFF < h then (s.raise .outOfBounds h).st else e.st :=
  by unfold State.ifInBounds; split <;> rfl
@[simp] theorem State.ifInBounds_tdiv (s e : State) (h : Nat) :
    (s.ifInBounds h e).tdiv = if 0xFFF < h then (s.raise .outOfBounds h).tdiv else e.tdiv :=
  by unfold State.ifInBounds; split <;> rfl
@[simp] theorem State.ifInBounds_err (s e : State) (h : Nat) :
    (s.ifInBounds h e).err = if 0xFFF < h then (s.raise .outOfBounds h).err else e.err :=
  by unfold State.ifInBounds; split <;> rfl
@[simp] theorem State.ifInBounds_report (s e : State) (h : Nat) :
    (s.ifInBounds h e).report = if 0xFFF < h then (s.raise .outOfBounds h).report else e.report :=
  by unfold State.ifInBounds; split <;> rfl
@[simp] theorem State.ifInBounds_rndCount (s e : State) (h : Nat) :
    (s.ifInBounds h e).rndCount =
      if 0xFFF < h then (s.raise .outOfBounds h).rndCount else e.rndCount :=
  by unfold State.ifInBounds; split <;> rfl
@[simp] theorem State.ifInBounds_cfg (s e : State) (h : Nat) :
    (s.ifInBounds h e).cfg = if 0xFFF < h then (s.raise .outOfBounds h).cfg else e.cfg :=
  by unfold State.ifInBounds; split <;> rfl
@[simp] theorem State.ifInBounds_reg (s e : State) (h : Nat) (z : Nibble) :
    (s.ifInBounds h e).reg z = if 0xFFF < h then s.reg z else e.reg z :=
  by unfold State.ifInBounds; split <;> rfl
@[simp] theorem State.ifInBounds_memRead (s e : State) (h q : Nat) :
    (s.ifInBounds h e).memRead q = if 0xFFF < h then s.memRead q else e.memRead q :=
  by unfold State.ifInBounds; split <;> rfl

/-- PC after a skip (R154). -/
@[simp] theorem State.skipIf_pc (s : State) (c : Bool) :
    (s.skipIf c).pc = if c then s.pc + 2 else s.pc := by
  unfold State.skipIf; split <;> rfl

/-- A skip writes nothing but PC (R154). -/
theorem State.skipIf_eq (s : State) (c : Bool) :
    s.skipIf c = s.setPc (if c then s.pc + 2 else s.pc) := by
  unfold State.skipIf; split <;> rfl

/-- TDIV after a tick (R128). -/
@[simp] theorem State.timerTick_tdiv (s : State) :
    s.timerTick.tdiv = if s.tdiv + 1 = s.cfg.cyclesPerTimerTick then 0 else s.tdiv + 1 := by
  unfold State.timerTick; split <;> rfl

/-- DT after a tick (R128). -/
@[simp] theorem State.timerTick_dt (s : State) :
    s.timerTick.dt = if s.tdiv + 1 = s.cfg.cyclesPerTimerTick then countDown s.dt else s.dt := by
  unfold State.timerTick; split <;> rfl

/-- ST after a tick (R128). -/
@[simp] theorem State.timerTick_st (s : State) :
    s.timerTick.st = if s.tdiv + 1 = s.cfg.cyclesPerTimerTick then countDown s.st else s.st := by
  unfold State.timerTick; split <;> rfl

/-- The end of a cycle is the tick and the draw count. -/
@[simp] theorem State.finishCycle_tdiv (s : State) : s.finishCycle.tdiv = s.timerTick.tdiv := rfl
@[simp] theorem State.finishCycle_dt (s : State) : s.finishCycle.dt = s.timerTick.dt := rfl
@[simp] theorem State.finishCycle_st (s : State) : s.finishCycle.st = s.timerTick.st := rfl
@[simp] theorem State.finishCycle_rndCount (s : State) :
    s.finishCycle.rndCount = s.rndCount + 1 := rfl

/-- The readers of the state after the end of a cycle. -/
@[simp] theorem State.finishCycle_reg (s : State) (z : Nibble) : s.finishCycle.reg z = s.reg z := by
  simp [State.reg]
@[simp] theorem State.finishCycle_memRead (s : State) (q : Nat) :
    s.finishCycle.memRead q = s.memRead q := by
  simp [State.memRead]
@[simp] theorem State.finishCycle_keyDown (s : State) (z : Nibble) :
    s.finishCycle.keyDown z = s.keyDown z := by
  simp [State.keyDown]

end Sys2Proof.Machine
end

