-- ==== Sys2Proof/Laws/Memory.lean ====
section
/-! SUPPORT. The laws of memory: a read after a write, the bytes of a block, and the canonical form, which
every operation keeps and which makes equal memories equal lists. -/

namespace Sys2Proof.Machine

variable {font : Font} {m : Memory}

@[simp] theorem Memory.read_nil (a : Nat) :
    Memory.read font [] a = Memory.unlisted font a := rfl

theorem Memory.read_cons (k a : Nat) (c : Byte) :
    Memory.read font ((k, c) :: m) a = if a = k then c else Memory.read font m a := rfl

/-- A canonical memory from `lo` on lists nothing below `lo`. -/
theorem Memory.read_below {lo a : Nat} (h : Memory.wfFrom font lo m = true) (ha : a < lo) :
    Memory.read font m a = Memory.unlisted font a := by
  induction m generalizing lo with
  | nil => rfl
  | cons e m ih =>
    obtain ⟨k, c⟩ := e
    simp only [Memory.wfFrom, Bool.and_eq_true, decide_eq_true_eq] at h
    rw [Memory.read_cons, if_neg (by omega)]
    exact ih h.2 (by omega)

theorem Memory.wfFrom_mono {lo lo' : Nat} (h : Memory.wfFrom font lo m = true) (hl : lo' ≤ lo) :
    Memory.wfFrom font lo' m = true := by
  cases m with
  | nil => rfl
  | cons e m =>
    obtain ⟨k, c⟩ := e
    simp only [Memory.wfFrom, Bool.and_eq_true, decide_eq_true_eq] at h ⊢
    exact ⟨⟨⟨by omega, h.1.1.2⟩, h.1.2⟩, h.2⟩

theorem Memory.read_put {a q : Nat} (b : Byte) (hm : Memory.read font m a = Memory.unlisted font a) :
    Memory.read font (Memory.put font a b m) q = if q = a then b else Memory.read font m q := by
  unfold Memory.put
  split
  · split <;> simp_all
  · rfl

theorem Memory.wfFrom_put {lo a : Nat} (b : Byte) (h : Memory.wfFrom font (a + 1) m = true)
    (hl : lo ≤ a) (ha : a < 4096) : Memory.wfFrom font lo (Memory.put font a b m) = true := by
  unfold Memory.put
  split
  · exact Memory.wfFrom_mono h (by omega)
  · simp_all [Memory.wfFrom]

/-- A read after a write: the written byte at that address, the old byte everywhere else (R64). -/
theorem Memory.read_write {lo : Nat} (h : Memory.wfFrom font lo m = true) (a q : Nat) (b : Byte) :
    Memory.read font (Memory.write font m a b) q = if q = a then b else Memory.read font m q := by
  induction m generalizing lo with
  | nil => exact Memory.read_put b rfl
  | cons e m ih =>
    obtain ⟨k, c⟩ := e
    have h' := h
    simp only [Memory.wfFrom, Bool.and_eq_true, decide_eq_true_eq] at h'
    unfold Memory.write
    split
    · refine Memory.read_put b (Memory.read_below (lo := k) ?_ (by omega))
      simp [Memory.wfFrom, h'.1.1.2, h'.1.2, h'.2]
    · split
      · next hk =>
        subst hk
        rw [Memory.read_put b (Memory.read_below h'.2 (by omega)), Memory.read_cons]
        split <;> simp_all
      · rw [Memory.read_cons, ih h'.2, Memory.read_cons]
        split <;> split <;> simp_all

/-- A write inside the address space keeps the canonical form. -/
theorem Memory.wfFrom_write {lo a : Nat} (b : Byte) (h : Memory.wfFrom font lo m = true)
    (hl : lo ≤ a) (ha : a < 4096) : Memory.wfFrom font lo (Memory.write font m a b) = true := by
  induction m generalizing lo with
  | nil => exact Memory.wfFrom_put b rfl hl ha
  | cons e m ih =>
    obtain ⟨k, c⟩ := e
    have h' := h
    simp only [Memory.wfFrom, Bool.and_eq_true, decide_eq_true_eq] at h'
    unfold Memory.write
    split
    · refine Memory.wfFrom_put b ?_ hl ha
      simp only [Memory.wfFrom, Bool.and_eq_true, decide_eq_true_eq]
      exact ⟨⟨⟨by omega, h'.1.1.2⟩, h'.1.2⟩, h'.2⟩
    · split
      · next hk => subst hk; exact Memory.wfFrom_put b h'.2 hl ha
      · simp only [Memory.wfFrom, Bool.and_eq_true, decide_eq_true_eq]
        exact ⟨⟨⟨h'.1.1.1, h'.1.1.2⟩, h'.1.2⟩, ih h'.2 (by omega)⟩

@[simp] theorem Memory.wf_nil : Memory.wf font [] = true := rfl

theorem Memory.wf_write {a : Nat} (b : Byte) (h : Memory.wf font m = true) (ha : a < 4096) :
    Memory.wf font (Memory.write font m a b) = true :=
  Memory.wfFrom_write b h (by omega) ha

/-- Writing a block inside the address space keeps the canonical form. -/
theorem Memory.wf_writeBytes {a : Nat} {bs : List Byte} (h : Memory.wf font m = true)
    (ha : a + bs.length ≤ 4096) : Memory.wf font (Memory.writeBytes font m a bs) = true := by
  induction bs generalizing m a with
  | nil => exact h
  | cons b bs ih =>
    simp only [List.length_cons] at ha
    exact ih (Memory.wf_write b h (by omega)) (by omega)

/-- A read after writing a block: the block's byte inside it, the old byte outside (R64, R65). -/
theorem Memory.read_writeBytes {a : Nat} {bs : List Byte} (h : Memory.wf font m = true)
    (ha : a + bs.length ≤ 4096) (q : Nat) :
    Memory.read font (Memory.writeBytes font m a bs) q =
      if hq : a ≤ q ∧ q < a + bs.length then bs[q - a]'(by omega) else Memory.read font m q := by
  induction bs generalizing m a with
  | nil => simp [Memory.writeBytes]
  | cons b bs ih =>
    simp only [List.length_cons] at ha ⊢
    rw [Memory.writeBytes, ih (Memory.wf_write b h (by omega)) (by omega), Memory.read_write h]
    by_cases h1 : a + 1 ≤ q ∧ q < a + 1 + bs.length
    · rw [dif_pos h1, dif_pos (by omega)]
      simp only [show q - a = (q - (a + 1)) + 1 by omega, List.getElem_cons_succ]
    · rw [dif_neg h1]
      by_cases h2 : q = a
      · subst h2; simp
      · rw [if_neg h2, dif_neg (by omega)]

@[simp] theorem Memory.length_readBytes (a n : Nat) :
    (Memory.readBytes font m a n).length = n := by
  induction n generalizing a with
  | zero => rfl
  | succ n ih => simp [Memory.readBytes, ih]

/-- The bytes of a block read, one by one. -/
theorem Memory.getElem_readBytes (a n k : Nat) (h : k < (Memory.readBytes font m a n).length) :
    (Memory.readBytes font m a n)[k] = Memory.read font m (a + k) := by
  induction n generalizing a k with
  | zero => simp at h
  | succ n ih =>
    cases k with
    | zero => rfl
    | succ k =>
      simp only [Memory.length_readBytes] at h
      simp only [Memory.readBytes, List.getElem_cons_succ]
      rw [ih _ _ (by simp; omega)]
      congr 1; omega

/-- The canonical form is unique: two canonical memories that read alike everywhere are one list. -/
theorem Memory.ext_of_wf {lo : Nat} {m n : Memory} (hm : Memory.wfFrom font lo m = true)
    (hn : Memory.wfFrom font lo n = true)
    (h : ∀ a, Memory.read font m a = Memory.read font n a) : m = n := by
  induction m generalizing lo n with
  | nil =>
    cases n with
    | nil => rfl
    | cons e n =>
      obtain ⟨k, c⟩ := e
      simp only [Memory.wfFrom, Bool.and_eq_true, decide_eq_true_eq] at hn
      have := h k
      simp only [Memory.read_nil, Memory.read_cons, if_true] at this
      exact absurd this.symm hn.1.2
  | cons e m ih =>
    obtain ⟨k, c⟩ := e
    have hm' := hm
    simp only [Memory.wfFrom, Bool.and_eq_true, decide_eq_true_eq] at hm'
    cases n with
    | nil =>
      have := h k
      simp only [Memory.read_nil, Memory.read_cons, if_true] at this
      exact absurd this hm'.1.2
    | cons e' n =>
      obtain ⟨k', c'⟩ := e'
      have hn' := hn
      simp only [Memory.wfFrom, Bool.and_eq_true, decide_eq_true_eq] at hn'
      have hk : k = k' := by
        rcases Nat.lt_trichotomy k k' with hlt | heq | hgt
        · have := h k
          rw [Memory.read_cons, if_pos rfl, Memory.read_below (lo := k') ?_ hlt] at this
          · exact absurd this hm'.1.2
          · simp [Memory.wfFrom, hn'.1.1.2, hn'.1.2, hn'.2]
        · exact heq
        · have := h k'
          rw [Memory.read_cons (k := k'), if_pos rfl, Memory.read_below (lo := k) ?_ hgt] at this
          · exact absurd this.symm hn'.1.2
          · simp [Memory.wfFrom, hm'.1.1.2, hm'.1.2, hm'.2]
      subst hk
      have hc : c = c' := by simpa [Memory.read_cons] using h k
      subst hc
      congr 1
      refine ih hm'.2 hn'.2 fun a => ?_
      by_cases ha : a = k
      · subst ha
        rw [Memory.read_below hm'.2 (by omega), Memory.read_below hn'.2 (by omega)]
      · simpa [Memory.read_cons, ha] using h a

/-! ## The memory of a state -/

/-- A byte read after a block store, for a state whose memory is canonical. -/
theorem State.memRead_memWriteBytes {s : State} {a : Nat} {bs : List Byte}
    (h : Memory.wf s.cfg.font s.mem = true) (ha : a + bs.length ≤ 4096) (q : Nat) :
    (s.memWriteBytes a bs).memRead q =
      if hq : a ≤ q ∧ q < a + bs.length then bs[q - a]'(by omega) else s.memRead q :=
  Memory.read_writeBytes h ha q

@[simp] theorem State.length_memReadBytes (s : State) (a n : Nat) :
    (s.memReadBytes a n).length = n := Memory.length_readBytes a n

theorem State.getElem_memReadBytes (s : State) (a n k : Nat) (h : k < (s.memReadBytes a n).length) :
    (s.memReadBytes a n)[k] = s.memRead (a + k) := Memory.getElem_readBytes a n k h

end Sys2Proof.Machine
end

