-- ==== Sys2Proof/Laws/Ops.lean ====
section
/-! SUPPORT. One law per shared operation over registers, keys, timers and conditions: what it can do, said
once, for later proofs to cite. -/

namespace Sys2Proof.Machine

/-! ## Registers -/

/-- A register read after a register write (R11, R23). -/
@[simp] theorem State.reg_setReg (s : State) (x z : Nibble) (b : Byte) :
    (s.setReg x b).reg z = if z = x then b else s.reg z := by
  unfold State.setReg State.reg
  simp only [State.setV_v, Vector.getElem_set, eq_comm, BitVec.toNat_inj]

/-- Flag first, result last: the result's register holds the result, even when it is VF (R125). -/
@[simp] theorem State.reg_flagThenResult (s : State) (x z : Nibble) (b : Byte) (f : Bool) :
    (s.flagThenResult x b f).reg z =
      if z = x then b else if z = vF then flagByte f else s.reg z := by
  simp [State.flagThenResult]

/-- Result first, flag last: VF holds the flag, even when it is the result's register (R125). -/
@[simp] theorem State.reg_resultThenFlag (s : State) (x z : Nibble) (b : Byte) (f : Bool) :
    (s.resultThenFlag x b f).reg z =
      if z = vF then flagByte f else if z = x then b else s.reg z := by
  simp [State.resultThenFlag]

/-- Two register files that agree on every register number are equal. -/
theorem reg_ext {v w : Vector Byte 16}
    (h : ∀ z : Nibble, v[z.toNat]'z.isLt = w[z.toNat]'z.isLt) : v = w := by
  refine Vector.ext fun k hk => ?_
  have := h (BitVec.ofNat 4 k)
  have hk' : (BitVec.ofNat 4 k).toNat = k := by simpa using hk
  simpa only [hk'] using this

/-- The registers after a block load: the loaded byte inside the block, the old value outside (R185). -/
theorem getElem_loadRegsFrom (k : Nat) (bs : List Byte) (v : Vector Byte 16) (z : Nat) (hz : z < 16) :
    (loadRegsFrom k bs v)[z] =
      if h : k ≤ z ∧ z < k + bs.length then bs[z - k]'(by omega) else v[z] := by
  induction bs generalizing k v with
  | nil => simp [loadRegsFrom]
  | cons b bs ih =>
    rw [loadRegsFrom, ih]
    by_cases h1 : k + 1 ≤ z ∧ z < k + 1 + bs.length
    · rw [dif_pos h1, dif_pos (by simp only [List.length_cons]; omega)]
      simp only [show z - k = (z - (k + 1)) + 1 by omega, List.getElem_cons_succ]
    · rw [dif_neg h1, Vector.getElem_setIfInBounds]
      by_cases h2 : k = z
      · subst h2; simp
      · rw [if_neg h2, dif_neg (by simp only [List.length_cons]; omega)]

@[simp] theorem length_regsUpTo (v : Vector Byte 16) (x : Nibble) :
    (regsUpTo v x).length = x.toNat + 1 := by
  have := x.isLt
  simp only [regsUpTo, List.length_take, Vector.length_toList]
  omega

theorem getElem_regsUpTo (v : Vector Byte 16) (x : Nibble) (k : Nat) (h : k < (regsUpTo v x).length) :
    (regsUpTo v x)[k] = v[k]'(by have := x.isLt; rw [length_regsUpTo] at h; omega) := by
  simp [regsUpTo]

/-! ## Flags and digits -/

@[simp] theorem flagByte_true : flagByte true = 0x01#8 := rfl
@[simp] theorem flagByte_false : flagByte false = 0x00#8 := rfl

theorem toNat_flagByte (f : Bool) : (flagByte f).toNat = if f then 1 else 0 := by
  cases f <;> rfl

@[simp] theorem length_decimalDigits (a : Byte) : (decimalDigits a).length = 3 := rfl

/-! ## The keypad -/

/-- Every key is up exactly when FX0A finds none (R212). -/
theorem firstKeyDown_eq_none {s : State} :
    firstKeyDown s.key = none ↔ ∀ k : Nibble, s.keyDown k = false := by
  unfold firstKeyDown State.keyDown
  rw [List.findIdx?_eq_none_iff]
  constructor
  · intro h k
    simpa using h (s.key[k.toNat]'k.isLt) (by simp)
  · intro h d hd
    obtain ⟨k, hk, rfl⟩ := List.getElem_of_mem hd
    simp only [Vector.length_toList] at hk
    have := h (BitVec.ofNat 4 k)
    simp only [BitVec.toNat_ofNat, Nat.mod_eq_of_lt hk] at this
    simpa using this

/-- The key FX0A finds is the least one that is down (R212). -/
theorem firstKeyDown_eq_some {s : State} {k : Nibble} (h : s.keyDown k = true)
    (hl : ∀ j : Nibble, j.toNat < k.toNat → s.keyDown j = false) :
    firstKeyDown s.key = some k.toNat := by
  unfold firstKeyDown
  rw [List.findIdx?_eq_some_iff_getElem]
  refine ⟨by simpa using k.isLt, by simpa [State.keyDown] using h, fun j hj => ?_⟩
  have hj16 : j < 16 := Nat.lt_trans hj k.isLt
  have := hl (BitVec.ofNat 4 j) (by simpa [Nat.mod_eq_of_lt hj16] using hj)
  simp only [State.keyDown, BitVec.toNat_ofNat, Nat.mod_eq_of_lt hj16] at this
  simpa using this

/-! ## Timers -/

/-- A timer counts down by one and stops at 0 (R128). -/
@[simp] theorem toNat_countDown (t : Byte) : (countDown t).toNat = t.toNat - 1 := by
  unfold countDown
  split
  · next h => subst h; rfl
  · next h =>
    have h0 : t.toNat ≠ 0 := fun h0 => h (BitVec.eq_of_toNat_eq h0)
    have := t.isLt
    bv_omega

/-! ## Bounds and conditions -/

theorem State.ifInBounds_of_le {s e : State} {h : Nat} (hh : h ≤ 0xFFF) : s.ifInBounds h e = e :=
  if_neg (by omega)

theorem State.ifInBounds_of_lt {s e : State} {h : Nat} (hh : 0xFFF < h) :
    s.ifInBounds h e = s.raise .outOfBounds h := if_pos hh

/-- A raised condition changes the report and ERR and nothing else (R127, R259). -/
theorem State.raise_eq (s : State) (c : Condition) (a : Nat) :
    s.raise c a = { s with
      report := { s.report with code := c, addr := BitVec.ofNat 13 a }
      err := s.err ||| c.errBit } := rfl

/-- No condition, no ERR bit (R120). -/
@[simp] theorem Condition.or_errBit_noCondition (e : BitVec 4) :
    e ||| Condition.noCondition.errBit = e := BitVec.or_zero

/-! ## The call stack -/

@[simp] theorem State.top_push (s : State) (a : Addr) : (s.push a).top = some a := by
  simp [State.top]

@[simp] theorem State.dropTop_push (s : State) (a : Addr) : (s.push a).dropTop = s := by
  simp [State.push, State.dropTop, State.setStack]

theorem State.top_eq_none {s : State} : s.top = none ↔ s.stack = [] := by
  simp [State.top]

end Sys2Proof.Machine
end

