-- ==== Sys2Proof/Laws/Display.lean ====
section
/-! SUPPORT. The laws of the display: what one plotted bit, one sprite row and a whole sprite do to every cell,
and when they collide. -/

namespace Sys2Proof.Machine

/-- A cell after a toggle: flipped when it is the cell named and on the grid, else as before (R202). -/
theorem Display.cell_toggle (d : Display) (tx ty cx cy : Nat) :
    Display.cell (Display.toggle d tx ty) cx cy =
      (Display.cell d cx cy ^^ (decide (tx ≤ 63) && decide (ty ≤ 31) && decide (cx = tx)
        && decide (cy = ty))) := by
  by_cases h : tx ≤ 63 ∧ ty ≤ 31
  · by_cases hc : cx ≤ 63 ∧ cy ≤ 31
    · have hcell (e : Display) : Display.cell e cx cy = (e[cy]'(by omega))[cx]'(by omega) := dif_pos hc
      rw [hcell, hcell, Display.toggle, dif_pos h]
      simp only [Vector.getElem_set]
      by_cases hy : ty = cy
      · subst hy
        by_cases hx : tx = cx
        · subst hx; simp [h]
        · simp [hx, Ne.symm hx]
      · simp [hy, Ne.symm hy]
    · have : ¬ (cx = tx ∧ cy = ty) := by rintro ⟨rfl, rfl⟩; exact hc h
      simp only [Display.cell, hc, dite_false, Bool.false_xor]
      symm
      simp only [Bool.and_eq_false_iff, decide_eq_false_iff_not]
      tauto
  · have h' : (decide (tx ≤ 63) && decide (ty ≤ 31)) = false := by
      simpa [Bool.and_eq_false_iff, not_and_or] using h
    simp [Display.toggle, h, h']

/-- Every cell of the clear display is 0 (R201). -/
@[simp] theorem Display.cell_clear (cx cy : Nat) : Display.cell Display.clear cx cy = false := by
  unfold Display.cell Display.clear
  split <;> simp

/-- Two displays that agree on every cell of the grid are equal. -/
theorem Display.ext_cell {d e : Display}
    (h : ∀ tx ty, tx ≤ 63 → ty ≤ 31 → Display.cell d tx ty = Display.cell e tx ty) : d = e := by
  ext ty hty tx htx
  have := h tx ty (by omega) (by omega)
  rw [Display.cell, Display.cell, dif_pos (by omega), dif_pos (by omega)] at this
  rw [this]

/-- The bit of row byte `b` that lands on column `cx` when the row starts at column `px` (R203). -/
def rowBit (b : Byte) (px cx : Nat) : Bool :=
  decide (px ≤ cx) && decide (cx < px + 8) && b.getLsbD (7 - (cx - px))

/-- The bit of a sprite that lands on the cell (`cx`, `cy`) when it starts at (`px`, `py`) (R202). -/
def rowsBit : List Byte → Nat → Nat → Nat → Nat → Bool
  | [], _, _, _, _ => false
  | b :: bs, px, py, cx, cy => (decide (cy = py) && rowBit b px cx) || rowsBit bs px (py + 1) cx cy

/-- A canvas after XORing the cells that `m` marks: the display flips exactly the marked cells of the grid,
and a collision is a marked cell that was 1 (R202). -/
structure Canvas.Marked (c c' : Canvas) (m : Nat → Nat → Bool) : Prop where
  cell : ∀ cx cy, cx ≤ 63 → cy ≤ 31 →
    Display.cell c'.disp cx cy = (Display.cell c.disp cx cy ^^ m cx cy)
  collision : c'.collision = true ↔ c.collision = true ∨
    ∃ cx cy, cx ≤ 63 ∧ cy ≤ 31 ∧ m cx cy = true ∧ Display.cell c.disp cx cy = true

theorem Canvas.Marked.refl (c : Canvas) : c.Marked c fun _ _ => false :=
  ⟨by simp, by simp⟩

theorem Canvas.Marked.congr {c c' : Canvas} {m m' : Nat → Nat → Bool} (h : c.Marked c' m)
    (e : ∀ cx cy, cx ≤ 63 → cy ≤ 31 → m cx cy = m' cx cy) : c.Marked c' m' := by
  refine ⟨fun cx cy hx hy => by rw [h.cell cx cy hx hy, e cx cy hx hy], ?_⟩
  rw [h.collision]
  constructor
  · rintro (h | ⟨cx, cy, hx, hy, h⟩)
    · exact .inl h
    · exact .inr ⟨cx, cy, hx, hy, by rwa [← e cx cy hx hy]⟩
  · rintro (h | ⟨cx, cy, hx, hy, h⟩)
    · exact .inl h
    · exact .inr ⟨cx, cy, hx, hy, by rwa [e cx cy hx hy]⟩

/-- Two disjoint marks one after the other are their union: no order can be seen (R204 h). -/
theorem Canvas.Marked.trans {c c' c'' : Canvas} {m m' : Nat → Nat → Bool} (h : c.Marked c' m)
    (h' : c'.Marked c'' m') (hd : ∀ cx cy, m cx cy = true → m' cx cy = false) :
    c.Marked c'' fun cx cy => m cx cy || m' cx cy := by
  constructor
  · intro cx cy hx hy
    rw [h'.cell cx cy hx hy, h.cell cx cy hx hy]
    have := hd cx cy
    cases h1 : m cx cy <;> cases h2 : m' cx cy <;> simp_all
  · rw [h'.collision, h.collision]
    constructor
    · rintro ((hc | ⟨cx, cy, hx, hy, hm, hc⟩) | ⟨cx, cy, hx, hy, hm, hc⟩)
      · exact .inl hc
      · exact .inr ⟨cx, cy, hx, hy, by simp [hm], hc⟩
      · refine .inr ⟨cx, cy, hx, hy, by simp [hm], ?_⟩
        rw [h.cell cx cy hx hy] at hc
        have := hd cx cy
        cases h1 : m cx cy <;> simp_all
    · rintro (hc | ⟨cx, cy, hx, hy, hm, hc⟩)
      · exact .inl (.inl hc)
      · cases h1 : m cx cy
        · refine .inr ⟨cx, cy, hx, hy, by simpa [h1] using hm, ?_⟩
          rw [h.cell cx cy hx hy, h1, Bool.xor_false, hc]
        · exact .inl (.inr ⟨cx, cy, hx, hy, h1, hc⟩)

/-- One plotted bit marks its own cell, when it is 1 (R202). -/
theorem Canvas.plot_marked (c : Canvas) (bit : Bool) (tx ty : Nat) :
    c.Marked (c.plot bit tx ty) fun cx cy => bit && decide (cx = tx) && decide (cy = ty) := by
  unfold Canvas.plot
  by_cases h : bit && decide (tx ≤ 63) && decide (ty ≤ 31)
  · rw [if_pos h]
    simp only [Bool.and_eq_true, decide_eq_true_eq] at h
    obtain ⟨⟨rfl, hx⟩, hy⟩ := h
    refine ⟨fun cx cy _ _ => by simp [Display.cell_toggle, hx, hy], ?_⟩
    simp only [Bool.or_eq_true, Bool.true_and, Bool.and_eq_true, decide_eq_true_eq]
    constructor
    · rintro (h | h)
      · exact .inl h
      · exact .inr ⟨tx, ty, hx, hy, ⟨rfl, rfl⟩, h⟩
    · rintro (h | ⟨_, _, _, _, ⟨rfl, rfl⟩, h⟩)
      · exact .inl h
      · exact .inr h
  · rw [if_neg h]
    refine (Canvas.Marked.refl c).congr fun cx cy hx hy => ?_
    simp only [Bool.and_eq_true, decide_eq_true_eq, not_and] at h
    symm
    rw [Bool.eq_false_iff]
    simp only [ne_eq, Bool.and_eq_true, decide_eq_true_eq]
    rintro ⟨⟨hb, rfl⟩, rfl⟩
    exact h ⟨hb, hx⟩ hy

/-- The columns drawn so far: offsets below `k` of a sprite row. -/
theorem Canvas.foldl_plot_marked (c : Canvas) (b : Byte) (px ty k : Nat) (hk : k ≤ 8) :
    c.Marked ((List.range k).foldl (fun c col => c.plot (b.getLsbD (7 - col)) (px + col) ty) c)
      fun cx cy => decide (cy = ty) && decide (px ≤ cx) && decide (cx < px + k)
        && b.getLsbD (7 - (cx - px)) := by
  induction k with
  | zero =>
    refine (Canvas.Marked.refl c).congr fun cx cy _ _ => ?_
    symm
    rw [Bool.eq_false_iff]
    simp only [ne_eq, Bool.and_eq_true, decide_eq_true_eq]
    omega
  | succ k ih =>
    rw [List.range_succ, List.foldl_append]
    refine ((ih (by omega)).trans (Canvas.plot_marked _ _ _ _) ?_).congr ?_
    · intro cx cy h
      simp only [Bool.and_eq_true, decide_eq_true_eq] at h
      rw [Bool.eq_false_iff]
      simp only [ne_eq, Bool.and_eq_true, decide_eq_true_eq]
      omega
    · intro cx cy _ _
      by_cases hx : cx = px + k
      · subst hx
        by_cases hy : cy = ty <;> simp [hy]
      · by_cases hl : cx < px + k
        · simp [hx, hl, show cx < px + (k + 1) by omega]
        · simp [hx, hl, show ¬ cx < px + (k + 1) by omega]

/-- One sprite row marks the cells of its display row on which a 1 bit lands (R202, R203). -/
theorem Canvas.drawRow_marked (c : Canvas) (b : Byte) (px ty : Nat) :
    c.Marked (c.drawRow b px ty) fun cx cy => decide (cy = ty) && rowBit b px cx :=
  (Canvas.foldl_plot_marked c b px ty 8 (by omega)).congr fun cx cy _ _ => by
    simp [rowBit, Bool.and_assoc]

theorem rowsBit_above (bs : List Byte) (px py cx cy : Nat) (h : cy < py) :
    rowsBit bs px py cx cy = false := by
  induction bs generalizing py with
  | nil => rfl
  | cons b bs ih =>
    rw [rowsBit, ih (py + 1) (by omega)]
    simp [show ¬ cy = py by omega]

/-- A whole sprite marks the cells on which a 1 bit of it lands (R202). -/
theorem Canvas.drawRows_marked (bs : List Byte) (c : Canvas) (px py : Nat) :
    c.Marked (c.drawRows bs px py) fun cx cy => rowsBit bs px py cx cy := by
  induction bs generalizing c py with
  | nil => exact Canvas.Marked.refl c
  | cons b bs ih =>
    refine (Canvas.drawRow_marked c b px py).trans (ih _ (py + 1)) ?_
    intro cx cy h
    simp only [Bool.and_eq_true, decide_eq_true_eq] at h
    exact rowsBit_above _ _ _ _ _ (by omega)

/-- The sprite bit on a cell, by the byte of its row (R203: row r lands on display row py + r). -/
theorem rowsBit_eq (bs : List Byte) (px py cx cy : Nat) :
    rowsBit bs px py cx cy =
      if h : py ≤ cy ∧ cy < py + bs.length then rowBit (bs[cy - py]'(by omega)) px cx else false := by
  induction bs generalizing py with
  | nil => simp [rowsBit]
  | cons b bs ih =>
    rw [rowsBit, ih]
    by_cases h0 : cy = py
    · subst h0; simp
    · by_cases h1 : py + 1 ≤ cy ∧ cy < py + 1 + bs.length
      · rw [dif_pos h1, dif_pos (by simp only [List.length_cons]; omega)]
        simp only [h0, decide_false, Bool.false_and, Bool.false_or,
          show cy - py = (cy - (py + 1)) + 1 by omega, List.getElem_cons_succ]
      · rw [dif_neg h1, dif_neg (by simp only [List.length_cons]; omega)]
        simp [h0]

end Sys2Proof.Machine
end

