-- ==== Sys2Proof/Laws/Exec.lean ====
section
/-! SUPPORT. What an instruction and a machine cycle can do, said once: every meaning answers a next state,
which `after` names, and a cycle is one of three cases. A later proof cites `exec_eq`, `step_cases` and the
field lemmas and unfolds no meaning. -/

namespace Sys2Proof.Machine

/-- The state an instruction leaves. -/
def after (i : Instr) (s : State) : State :=
  match i with
  | .cls => (s.setDisp Display.clear).setDraw true
  | .ret => match s.top with
    | none => s.raise .stackUnderflow 0
    | some a => s.dropTop.setPc a
  | .jp nnn => s.setPc nnn
  | .call nnn => if s.stackFull then s.raise .stackOverflow 0 else (s.push s.pc).setPc nnn
  | .seImm x kk => s.skipIf (s.reg x == kk)
  | .sneImm x kk => s.skipIf (s.reg x != kk)
  | .seReg x y _ => s.skipIf (s.reg x == s.reg y)
  | .ldImm x kk => s.setReg x kk
  | .addImm x kk => s.setReg x (s.reg x + kk)
  | .ldReg x y => s.setReg x (s.reg y)
  | .orReg x y => s.setReg x (s.reg x ||| s.reg y)
  | .andReg x y => s.setReg x (s.reg x &&& s.reg y)
  | .xorReg x y => s.setReg x (s.reg x ^^^ s.reg y)
  | .addReg x y => s.resultThenFlag x (s.reg x + s.reg y) (carryOut (s.reg x) (s.reg y))
  | .subReg x y => s.flagThenResult x (s.reg x - s.reg y) (noBorrow (s.reg x) (s.reg y))
  | .shr x _ => s.flagThenResult x (s.reg x >>> 1) (shiftedOutRight (s.reg x))
  | .subnReg x y => s.flagThenResult x (s.reg y - s.reg x) (noBorrow (s.reg y) (s.reg x))
  | .shl x _ => s.flagThenResult x (s.reg x <<< 1) (shiftedOutLeft (s.reg x))
  | .sneReg x y _ => s.skipIf (s.reg x != s.reg y)
  | .ldI nnn => s.setI nnn
  | .jpV0 nnn => s.setPc (jumpTarget nnn (s.reg 0x0#4))
  | .rnd x kk => s.setReg x (Config.rndInput s.rndCount &&& kk)
  | .drw x y n =>
    if n = 0x0#4 then s.drawSprite x y n
    else s.ifInBounds (effectiveAddr s.i (n.toNat - 1)) (s.drawSprite x y n)
  | .skp x => s.skipIf (s.keyDown (keyIndex (s.reg x)))
  | .sknp x => s.skipIf (!s.keyDown (keyIndex (s.reg x)))
  | .ldFromDt x => s.setReg x s.dt
  | .waitKey x => match firstKeyDown s.key with
    | none => s.setPc (s.pc - 2)
    | some k => s.setReg x (BitVec.ofNat 8 k)
  | .ldToDt x => s.setDt (s.reg x)
  | .ldToSt x => s.setSt (s.reg x)
  | .addI x =>
    (s.setI (indexSum s.i (s.reg x))).setReg vF (flagByte (indexOverflow s.i (s.reg x)))
  | .ldGlyph x => s.setI (glyphAddr (s.reg x))
  | .storeBcd x => s.ifInBounds (effectiveAddr s.i 2)
      (s.memWriteBytes (effectiveAddr s.i 0) (decimalDigits (s.reg x)))
  | .storeRegs x => s.ifInBounds (effectiveAddr s.i x.toNat)
      ((s.memWriteBytes (effectiveAddr s.i 0) (regsUpTo s.v x)).setI (indexAfterBlock s.i x))
  | .loadRegs x => s.ifInBounds (effectiveAddr s.i x.toNat)
      ((s.setV (loadRegsFrom 0 (s.memReadBytes (effectiveAddr s.i 0) (x.toNat + 1)) s.v)).setI
        (indexAfterBlock s.i x))

/-- Every meaning answers a next state: `after`. -/
theorem exec_eq (i : Instr) (s : State) : exec i s = .next (after i s) := by
  cases i
  case ret => simp only [exec, execRet, after]; split <;> simp_all
  case call => simp only [exec, execCall, after]; split <;> rfl
  case drw => simp only [exec, execDrw, after]; split <;> rfl
  case waitKey => simp only [exec, execWaitKey, after]; split <;> simp_all
  all_goals rfl

/-- The three cases of a machine cycle (R120): a failed fetch, an UNKNOWN word, an executed instruction. -/
theorem step_cases (s : State) :
    (s.fetchWord = none ∧ step s = .next s.fetchFailed.finishCycle) ∨
    (∃ iw e, s.fetchWord = some iw ∧ decodeWord iw = .error e ∧
      step s = .next (s.unknownWord iw).finishCycle) ∨
    (∃ iw i, s.fetchWord = some iw ∧ decodeWord iw = .ok i ∧
      step s = .next (after i (s.preAdvance iw)).finishCycle) := by
  unfold step
  cases hf : s.fetchWord with
  | none => exact .inl ⟨rfl, rfl⟩
  | some iw =>
    cases hd : decodeWord iw with
    | error e => exact .inr (.inl ⟨iw, e, rfl, hd, by simp [hd]⟩)
    | ok i => exact .inr (.inr ⟨iw, i, rfl, hd, by simp [hd, exec_eq]⟩)

/-! ## A drawn sprite, field by field -/

/-- The canvas DXYN leaves: the rows at I drawn at (Vx, Vy) on the display (R202). -/
def State.drawnCanvas (s : State) (x y n : Nibble) : Canvas :=
  Canvas.drawRows { disp := s.disp, collision := false }
    (s.memReadBytes (effectiveAddr s.i 0) n.toNat) (s.reg x).toNat (s.reg y).toNat

theorem State.drawSprite_eq (s : State) (x y n : Nibble) :
    s.drawSprite x y n = ((s.setDisp (s.drawnCanvas x y n).disp).setReg vF
      (flagByte (s.drawnCanvas x y n).collision)).setDraw true := rfl

/-! ## The end of a cycle and a pre-advanced state that reports, as records -/

/-- A tick moves the divider and the timers and nothing else (R128). -/
theorem State.timerTick_eq (s : State) : s.timerTick = { s with
    tdiv := s.timerTick.tdiv, dt := s.timerTick.dt, st := s.timerTick.st } := by
  unfold State.timerTick; split <;> rfl

/-- The end of a cycle moves the divider, the timers and the draw count and nothing else (R128). -/
theorem State.finishCycle_eq (s : State) : s.finishCycle = { s with
    tdiv := s.timerTick.tdiv, dt := s.timerTick.dt, st := s.timerTick.st
    rndCount := s.rndCount + 1 } := by
  unfold State.finishCycle State.timerTick; split <;> rfl

/-- A failed fetch (R121). -/
theorem State.fetchFailed_eq (s : State) : s.fetchFailed = { s with
    pc := s.pc + 2
    report := { code := .outOfBounds, iaddr := s.pc, word := 0#16, addr := 0x1000#13 }
    err := s.err ||| 0b0100#4 } := rfl

/-- An UNKNOWN word (R126). -/
theorem State.unknownWord_eq (s : State) (iw : Word) : s.unknownWord iw = { s with
    pc := s.pc + 2
    report := { code := .unknownOpcode, iaddr := s.pc, word := iw, addr := 0#13 }
    err := s.err ||| 0b0001#4 } := rfl

end Sys2Proof.Machine
end

