-- ==== Sys2Proof/Laws/PerInstr.lean ====
section
/-! SUPPORT. The family `Encoding`, instruction by instruction: the word of an instruction selects its row of
the opcode map (30_encoding.md R93, R100), and its canonical spelling is well-formed and of the same row
(R97, R104). -/

namespace Sys2Proof.Laws.Encoding

/-- What is stated of every instruction, as syntax. -/
def Statement (i : Instr) : Prop :=
  i.row.selects (encode i) = true ∧ i.canonical.wellFormed = true ∧ i.canonical.row = i.row

/-- Masking a word in format A masks its fields. -/
theorem formatA_and (op m : Nibble) (nnn k : Addr) :
    formatA op nnn &&& formatA m k = formatA (op &&& m) (nnn &&& k) := BitVec.and_append

/-- The match bits of a word in format A, whatever its field (R93). -/
theorem mask_formatA (op : Nibble) (nnn : Addr) :
    formatA op nnn &&& 0xF000#16 = formatA op 0#12 := by
  refine (formatA_and op 0xF#4 nnn 0#12).trans ?_
  rw [BitVec.and_zero, show (0xF#4 : Nibble) = BitVec.allOnes 4 from rfl, BitVec.and_allOnes]

/-- The match bits of a word in format R, whose low byte is fixed (R93). -/
theorem mask_formatRI (op x : Nibble) (kk : Byte) :
    formatRI op x kk &&& 0xF0FF#16 = formatRI op 0#4 kk := by
  refine (formatA_and op 0xF#4 (x ++ kk) (0#4 ++ 0xFF#8)).trans ?_
  have h : (x ++ kk : Addr) &&& (0#4 ++ 0xFF#8 : Addr) = (0#4 ++ kk : Addr) := by
    refine BitVec.and_append.trans ?_
    rw [BitVec.and_zero, show (0xFF#8 : Byte) = BitVec.allOnes 8 from rfl, BitVec.and_allOnes]
  rw [h, show (0xF#4 : Nibble) = BitVec.allOnes 4 from rfl, BitVec.and_allOnes]
  rfl

/-- The match bits of a word in format RR, whose low nibble is fixed (R93). -/
theorem mask_formatRRN (op x y n : Nibble) :
    formatRRN op x y n &&& 0xF00F#16 = formatRRN op 0#4 0#4 n := by
  refine (formatA_and op 0xF#4 (x ++ (y ++ n : Byte)) (0#4 ++ (0#4 ++ 0xF#4 : Byte))).trans ?_
  have h1 : (y ++ n : Byte) &&& (0#4 ++ 0xF#4 : Byte) = (0#4 ++ n : Byte) := by
    refine BitVec.and_append.trans ?_
    rw [BitVec.and_zero, show (0xF#4 : Nibble) = BitVec.allOnes 4 from rfl, BitVec.and_allOnes]
  have h : (x ++ (y ++ n : Byte) : Addr) &&& (0#4 ++ (0#4 ++ 0xF#4 : Byte) : Addr) =
      (0#4 ++ (0#4 ++ n : Byte) : Addr) := by
    refine BitVec.and_append.trans ?_
    rw [BitVec.and_zero, h1]
  rw [h, show (0xF#4 : Nibble) = BitVec.allOnes 4 from rfl, BitVec.and_allOnes]
  rfl

/-- A word whose match bits are the row's selects it. -/
theorem selects_of_mask {r : Row} {w b : Word} (h : w &&& r.mask = b) (hb : b = r.bits) :
    r.selects w = true := by
  unfold Row.selects
  rw [h, hb, beq_self_eq_true]

theorem cls : Statement .cls :=
  ⟨rfl, rfl, rfl⟩

theorem ret : Statement .ret :=
  ⟨rfl, rfl, rfl⟩

theorem jp (nnn : Addr) : Statement (.jp nnn) :=
  ⟨selects_of_mask (mask_formatA _ nnn) rfl, rfl, rfl⟩

theorem call (nnn : Addr) : Statement (.call nnn) :=
  ⟨selects_of_mask (mask_formatA _ nnn) rfl, rfl, rfl⟩

theorem seImm (x : Nibble) (kk : Byte) : Statement (.seImm x kk) :=
  ⟨selects_of_mask (mask_formatA _ (x ++ kk)) rfl, rfl, rfl⟩

theorem sneImm (x : Nibble) (kk : Byte) : Statement (.sneImm x kk) :=
  ⟨selects_of_mask (mask_formatA _ (x ++ kk)) rfl, rfl, rfl⟩

theorem seReg (x y n : Nibble) : Statement (.seReg x y n) :=
  ⟨selects_of_mask (mask_formatA _ (x ++ (y ++ n : Byte))) rfl, rfl, rfl⟩

theorem ldImm (x : Nibble) (kk : Byte) : Statement (.ldImm x kk) :=
  ⟨selects_of_mask (mask_formatA _ (x ++ kk)) rfl, rfl, rfl⟩

theorem addImm (x : Nibble) (kk : Byte) : Statement (.addImm x kk) :=
  ⟨selects_of_mask (mask_formatA _ (x ++ kk)) rfl, rfl, rfl⟩

theorem ldReg (x y : Nibble) : Statement (.ldReg x y) :=
  ⟨selects_of_mask (mask_formatRRN _ x y _) rfl, rfl, rfl⟩

theorem orReg (x y : Nibble) : Statement (.orReg x y) :=
  ⟨selects_of_mask (mask_formatRRN _ x y _) rfl, rfl, rfl⟩

theorem andReg (x y : Nibble) : Statement (.andReg x y) :=
  ⟨selects_of_mask (mask_formatRRN _ x y _) rfl, rfl, rfl⟩

theorem xorReg (x y : Nibble) : Statement (.xorReg x y) :=
  ⟨selects_of_mask (mask_formatRRN _ x y _) rfl, rfl, rfl⟩

theorem addReg (x y : Nibble) : Statement (.addReg x y) :=
  ⟨selects_of_mask (mask_formatRRN _ x y _) rfl, rfl, rfl⟩

theorem subReg (x y : Nibble) : Statement (.subReg x y) :=
  ⟨selects_of_mask (mask_formatRRN _ x y _) rfl, rfl, rfl⟩

theorem shr (x y : Nibble) : Statement (.shr x y) :=
  ⟨selects_of_mask (mask_formatRRN _ x y _) rfl, rfl, rfl⟩

theorem subnReg (x y : Nibble) : Statement (.subnReg x y) :=
  ⟨selects_of_mask (mask_formatRRN _ x y _) rfl, rfl, rfl⟩

theorem shl (x y : Nibble) : Statement (.shl x y) :=
  ⟨selects_of_mask (mask_formatRRN _ x y _) rfl, rfl, rfl⟩

theorem sneReg (x y n : Nibble) : Statement (.sneReg x y n) :=
  ⟨selects_of_mask (mask_formatA _ (x ++ (y ++ n : Byte))) rfl, rfl, rfl⟩

theorem ldI (nnn : Addr) : Statement (.ldI nnn) :=
  ⟨selects_of_mask (mask_formatA _ nnn) rfl, rfl, rfl⟩

theorem jpV0 (nnn : Addr) : Statement (.jpV0 nnn) :=
  ⟨selects_of_mask (mask_formatA _ nnn) rfl, rfl, rfl⟩

theorem rnd (x : Nibble) (kk : Byte) : Statement (.rnd x kk) :=
  ⟨selects_of_mask (mask_formatA _ (x ++ kk)) rfl, rfl, rfl⟩

theorem drw (x y n : Nibble) : Statement (.drw x y n) :=
  ⟨selects_of_mask (mask_formatA _ (x ++ (y ++ n : Byte))) rfl, rfl, rfl⟩

theorem skp (x : Nibble) : Statement (.skp x) :=
  ⟨selects_of_mask (mask_formatRI _ x _) rfl, rfl, rfl⟩

theorem sknp (x : Nibble) : Statement (.sknp x) :=
  ⟨selects_of_mask (mask_formatRI _ x _) rfl, rfl, rfl⟩

theorem ldFromDt (x : Nibble) : Statement (.ldFromDt x) :=
  ⟨selects_of_mask (mask_formatRI _ x _) rfl, rfl, rfl⟩

theorem waitKey (x : Nibble) : Statement (.waitKey x) :=
  ⟨selects_of_mask (mask_formatRI _ x _) rfl, rfl, rfl⟩

theorem ldToDt (x : Nibble) : Statement (.ldToDt x) :=
  ⟨selects_of_mask (mask_formatRI _ x _) rfl, rfl, rfl⟩

theorem ldToSt (x : Nibble) : Statement (.ldToSt x) :=
  ⟨selects_of_mask (mask_formatRI _ x _) rfl, rfl, rfl⟩

theorem addI (x : Nibble) : Statement (.addI x) :=
  ⟨selects_of_mask (mask_formatRI _ x _) rfl, rfl, rfl⟩

theorem ldGlyph (x : Nibble) : Statement (.ldGlyph x) :=
  ⟨selects_of_mask (mask_formatRI _ x _) rfl, rfl, rfl⟩

theorem storeBcd (x : Nibble) : Statement (.storeBcd x) :=
  ⟨selects_of_mask (mask_formatRI _ x _) rfl, rfl, rfl⟩

theorem storeRegs (x : Nibble) : Statement (.storeRegs x) :=
  ⟨selects_of_mask (mask_formatRI _ x _) rfl, rfl, rfl⟩

theorem loadRegs (x : Nibble) : Statement (.loadRegs x) :=
  ⟨selects_of_mask (mask_formatRI _ x _) rfl, rfl, rfl⟩

end Sys2Proof.Laws.Encoding
end

