-- ==== Sys2Proof/Laws/Safety.lean ====
section
/-! SUPPORT. The small laws of the terms claims are stated in: what a cycle executes is one instruction, a frame
holds of a state and itself, and blanking the diagnostics blanks only them. -/

namespace Sys2Proof.Machine

/-- A cycle executes exactly the instruction its word decodes to (R124). -/
theorem executes_iff {s : State} {iw : Word} {j : Instr} (hf : s.fetchWord = some iw)
    (hd : decodeWord iw = .ok j) (i : Instr) : Executes s i ↔ i = j := by
  constructor
  · rintro ⟨iw', hf', hd'⟩
    rw [hf] at hf'
    cases hf'
    rw [hd] at hd'
    cases hd'
    rfl
  · rintro rfl
    exact ⟨iw, hf, hd⟩

/-- A cycle whose fetch fails executes nothing (R121). -/
theorem not_executes_of_no_fetch {s : State} (hf : s.fetchWord = none) (i : Instr) :
    ¬ Executes s i := by
  rintro ⟨iw, hf', -⟩
  rw [hf] at hf'
  cases hf'

/-- A cycle that fetches an UNKNOWN word executes nothing (R126). -/
theorem not_executes_of_unknown {s : State} {iw : Word} {e : Reject} (hf : s.fetchWord = some iw)
    (hd : decodeWord iw = .error e) (i : Instr) : ¬ Executes s i := by
  rintro ⟨iw', hf', hd'⟩
  rw [hf] at hf'
  cases hf'
  rw [hd] at hd'
  cases hd'

theorem SameMemory.refl (s : State) : SameMemory s s := fun _ => rfl

/-- Two states with the same bytes listed under the same font read alike everywhere. -/
theorem SameMemory.of_eq {s t : State} (hm : t.mem = s.mem) (hc : t.cfg = s.cfg) : SameMemory s t := by
  intro a
  unfold State.memRead
  rw [hm, hc]

/-- A write of a register in the list is within the frame. -/
theorem OnlyRegs.setReg (s : State) {w : List Nibble} {x : Nibble} (hx : x ∈ w) (b : Byte) :
    OnlyRegs w s (s.setReg x b) where
  regs z hz := by
    rw [State.reg_setReg, if_neg]
    rintro rfl
    exact hz hx
  memory _ := rfl
  rest := rfl

/-- A write of PC is within the frame. -/
theorem OnlyPc.setPc (s : State) (a : Addr) : OnlyPc s (s.setPc a) where
  memory _ := rfl
  rest := rfl

/-- A skip, taken or not, is within the frame of PC. -/
theorem OnlyPc.skipIf (s : State) (c : Bool) : OnlyPc s (s.skipIf c) := by
  cases c
  · exact ⟨fun _ => rfl, rfl⟩
  · exact OnlyPc.setPc s _

end Sys2Proof.Machine
end

