-- ==== Sys2Proof/Tests/Slice0.lean ====
section
/-! SUPPORT. Tests and witnesses. The expected value of a test is copied from the test vectors of
spec/95_test_vectors.md (its id stands in the docstring) or from the encoding tables of spec/30_encoding.md, never
from the model. A witness shows a concrete state that meets the hypotheses of one obligation, clause by clause at
the boundary. -/

open Sys2Proof Sys2Proof.Machine

namespace Sys2Proof.Tests

/-! ## Helpers -/

/-- The reset state with some registers set and a word placed where the next cycle fetches it. -/
def start (w : Nat) (regs : List (Nibble × Byte)) : State :=
  (regs.foldl (fun s p => s.setReg p.1 p.2) State.reset).withFetchWord 16 w

/-- One cycle leads to a state with the property. -/
def after1 (s : State) (p : State → Bool) : Bool :=
  match step s with
  | .next t => p t
  | .fault _ => false
  | .refused _ => false

/-- One operation of the host leads to a state and a reply with the property. -/
def afterCall (c : HostCall) (s : State) (p : State → HostReply → Bool) : Bool :=
  match hostCall c s with
  | .next (t, r) => p t r
  | .fault _ => false
  | .refused _ => false

/-! ## WellFormed: an ill-formed term for each check, refused (R97, R104) -/

theorem test_wellFormed_seReg : (Instr.seReg 1#4 2#4 7#4).wellFormed = false := by decide
theorem test_wellFormed_sneReg : (Instr.sneReg 1#4 2#4 0xF#4).wellFormed = false := by decide
theorem test_wellFormed_shr : (Instr.shr 1#4 2#4).wellFormed = false := by decide
theorem test_wellFormed_shl : (Instr.shl 1#4 2#4).wellFormed = false := by decide
theorem test_wellFormed_accepts : (Instr.seReg 1#4 2#4 0#4).wellFormed = true ∧
    (Instr.shr 1#4 0#4).wellFormed = true ∧ (Instr.drw 1#4 2#4 0xF#4).wellFormed = true := by decide

/-! ## Decoding: a word of every row, written out from R93 and R100 -/

/-- Families 0 to 4 and 6, 7. -/
theorem test_decode_flow_and_immediates :
    decodeWord 0b0000000011100000#16 = .ok .cls ∧
    decodeWord 0b0000000011101110#16 = .ok .ret ∧
    decodeWord 0b0001101010111100#16 = .ok (.jp 0xABC#12) ∧
    decodeWord 0b0010001100000001#16 = .ok (.call 0x301#12) ∧
    decodeWord 0b0011000100000011#16 = .ok (.seImm 1#4 0x03#8) ∧
    decodeWord 0b0100101001011010#16 = .ok (.sneImm 0xA#4 0x5A#8) ∧
    decodeWord 0b0110101001111011#16 = .ok (.ldImm 0xA#4 0x7B#8) ∧
    decodeWord 0b0111000111111110#16 = .ok (.addImm 1#4 0xFE#8) := by decide

/-- Families 5 and 9, the low nibble whatever it is (Y10, Y11). -/
theorem test_decode_register_skips :
    decodeWord 0b0101000100100000#16 = .ok (.seReg 1#4 2#4 0#4) ∧
    decodeWord 0b0101000100100111#16 = .ok (.seReg 1#4 2#4 7#4) ∧
    decodeWord 0b1001000100101111#16 = .ok (.sneReg 1#4 2#4 0xF#4) := by decide

/-- Family 8. -/
theorem test_decode_family8 :
    decodeWord 0b1000000100100000#16 = .ok (.ldReg 1#4 2#4) ∧
    decodeWord 0b1000000100100001#16 = .ok (.orReg 1#4 2#4) ∧
    decodeWord 0b1000000100100010#16 = .ok (.andReg 1#4 2#4) ∧
    decodeWord 0b1000000100100011#16 = .ok (.xorReg 1#4 2#4) ∧
    decodeWord 0b1000000100100100#16 = .ok (.addReg 1#4 2#4) ∧
    decodeWord 0b1000000100100101#16 = .ok (.subReg 1#4 2#4) ∧
    decodeWord 0b1000000100100110#16 = .ok (.shr 1#4 2#4) ∧
    decodeWord 0b1000000100100111#16 = .ok (.subnReg 1#4 2#4) ∧
    decodeWord 0b1000000100101110#16 = .ok (.shl 1#4 2#4) := by decide

/-- Families A to E. -/
theorem test_decode_families_A_to_E :
    decodeWord 0b1010000100100011#16 = .ok (.ldI 0x123#12) ∧
    decodeWord 0b1011001100000000#16 = .ok (.jpV0 0x300#12) ∧
    decodeWord 0b1100001100001111#16 = .ok (.rnd 3#4 0x0F#8) ∧
    decodeWord 0b1101000100100101#16 = .ok (.drw 1#4 2#4 5#4) ∧
    decodeWord 0b1110000110011110#16 = .ok (.skp 1#4) ∧
    decodeWord 0b1110000110100001#16 = .ok (.sknp 1#4) := by decide

/-- Family F. -/
theorem test_decode_familyF :
    decodeWord 0b1111001000000111#16 = .ok (.ldFromDt 2#4) ∧
    decodeWord 0b1111001100001010#16 = .ok (.waitKey 3#4) ∧
    decodeWord 0b1111000000010101#16 = .ok (.ldToDt 0#4) ∧
    decodeWord 0b1111000100011000#16 = .ok (.ldToSt 1#4) ∧
    decodeWord 0b1111001000011110#16 = .ok (.addI 2#4) ∧
    decodeWord 0b1111000000101001#16 = .ok (.ldGlyph 0#4) ∧
    decodeWord 0b1111101000110011#16 = .ok (.storeBcd 0xA#4) ∧
    decodeWord 0b1111001001010101#16 = .ok (.storeRegs 2#4) ∧
    decodeWord 0b1111001001100101#16 = .ok (.loadRegs 2#4) := by decide

/-- Words that are no instruction, each rejected by its family's name (Y3 to Y9, R101). -/
theorem test_decode_rejects :
    decodeWord 0x0000#16 = .error .unknownFamily0 ∧
    decodeWord 0x00E1#16 = .error .unknownFamily0 ∧
    decodeWord 0x01E0#16 = .error .unknownFamily0 ∧
    decodeWord 0x8128#16 = .error .unknownFamily8 ∧
    decodeWord 0x812F#16 = .error .unknownFamily8 ∧
    decodeWord 0xE19F#16 = .error .unknownFamilyE ∧
    decodeWord 0xF100#16 = .error .unknownFamilyF ∧
    decodeWord 0xF175#16 = .error .unknownFamilyF := by decide

/-- Bytes: the high byte first, the rest handed on, a lone byte too short (R65, R90). -/
theorem test_decode_bytes :
    decode [0x12#8, 0x34#8, 0x56#8] = .ok (.jp 0x234#12, [0x56#8]) ∧
    decode [0x12#8] = .error .truncated ∧ decode [] = .error .truncated := by decide

/-- The host's numbering: the word's bits as they stand. -/
theorem test_decodeTableWord :
    decodeTableWord 16 0x8014 = some (.addReg 0#4 1#4) ∧ decodeTableWord 16 0x8018 = none := by decide

/-! ## One cycle of every instruction, by the spec's vectors -/

/-- W1b. -/
theorem test_cls : after1 (start 0x00E0 [])
    (fun t => t.draw && t.pc == 0x202#12 && t.disp == Display.clear) = true := by decide

/-- W1. -/
theorem test_cls_clears : after1 ((start 0x00E0 []).setDisp (Display.toggle Display.clear 5 0))
    (fun t => !t.disp.pixel 5 && t.draw) = true := by decide

/-- F9: last in, first out. -/
theorem test_ret : after1 ((start 0x00EE []).setStack [0x202#12, 0x302#12])
    (fun t => t.pc == 0x302#12 && t.stack == [0x202#12]) = true := by decide

/-- F6. -/
theorem test_ret_underflow : after1 (start 0x00EE [])
    (fun t => t.pc == 0x202#12 && t.stack == [] && t.err == 0b0010#4 &&
    t.report == { code := .stackUnderflow, iaddr := 0x200#12, word := 0x00EE#16, addr := 0#13 }) = true := by decide

/-- F1. -/
theorem test_jp : after1 (start 0x1ABC [])
    (fun t => t.pc == 0xABC#12 && t.stack == []) = true := by decide

/-- F4. -/
theorem test_call : after1 (start 0x2300 [])
    (fun t => t.pc == 0x300#12 && t.stack == [0x202#12]) = true := by decide

/-- F8, with the word at 0x200. -/
theorem test_call_overflow : after1 ({ start 0x2500 [] with
    stack := [0x202#12, 0x302#12], cfg := { Config.default with stackDepth := some 2 } })
    (fun t => t.stack == [0x202#12, 0x302#12] && t.pc == 0x202#12 && t.err == 0b1000#4) = true := by decide

/-- K1. -/
theorem test_seImm : after1 (start 0x3103 [(1#4, 3#8)])
    (fun t => t.pc == 0x204#12) = true := by decide

/-- K2. -/
theorem test_seImm_not : after1 (start 0x3103 [(1#4, 2#8)])
    (fun t => t.pc == 0x202#12) = true := by decide

/-- K4. -/
theorem test_sneImm : after1 (start 0x4A00 [(0xA#4, 7#8)])
    (fun t => t.pc == 0x204#12) = true := by decide

/-- K3. -/
theorem test_sneImm_not : after1 (start 0x4A00 [])
    (fun t => t.pc == 0x202#12) = true := by decide

/-- Y10. -/
theorem test_seReg : after1 (start 0x5127 [(1#4, 9#8), (2#4, 9#8)])
    (fun t => t.pc == 0x204#12 && t.report.code == .noCondition) = true := by decide

/-- K6. -/
theorem test_seReg_not : after1 (start 0x5120 [(1#4, 1#8), (2#4, 2#8)])
    (fun t => t.pc == 0x202#12) = true := by decide

/-- Y11. -/
theorem test_sneReg : after1 (start 0x912F [(1#4, 1#8), (2#4, 2#8)])
    (fun t => t.pc == 0x204#12) = true := by decide

/-- K9. -/
theorem test_sneReg_not : after1 (start 0x9120 [])
    (fun t => t.pc == 0x202#12) = true := by decide

/-- A2. -/
theorem test_ldImm : after1 (start 0x6FFF [])
    (fun t => t.reg 0xF#4 == 0xFF#8 && t.pc == 0x202#12) = true := by decide

/-- A3: no flag. -/
theorem test_addImm : after1 (start 0x7102 [(1#4, 0xFF#8)])
    (fun t => t.reg 1#4 == 0x01#8 && t.reg 0xF#4 == 0#8) = true := by decide

/-- A6. -/
theorem test_ldReg : after1 (start 0x8120 [(2#4, 0x33#8)])
    (fun t => t.reg 1#4 == 0x33#8 && t.reg 2#4 == 0x33#8) = true := by decide

/-- A7: VF is not reset. -/
theorem test_orReg : after1 (start 0x8121 [(1#4, 0x0F#8), (2#4, 0xF0#8), (0xF#4, 1#8)])
    (fun t => t.reg 1#4 == 0xFF#8 && t.reg 0xF#4 == 1#8) = true := by decide

/-- A8. -/
theorem test_andReg : after1 (start 0x8122 [(1#4, 0x3C#8), (2#4, 0x0F#8), (0xF#4, 1#8)])
    (fun t => t.reg 1#4 == 0x0C#8 && t.reg 0xF#4 == 1#8) = true := by decide

/-- A9. -/
theorem test_xorReg : after1 (start 0x8123 [(1#4, 0xFF#8), (2#4, 0x0F#8), (0xF#4, 1#8)])
    (fun t => t.reg 1#4 == 0xF0#8 && t.reg 0xF#4 == 1#8) = true := by decide

/-- A12. -/
theorem test_addReg : after1 (start 0x8014 [(0#4, 0xFF#8), (1#4, 0xFF#8)])
    (fun t => t.reg 0#4 == 0xFE#8 && t.reg 0xF#4 == 1#8) = true := by decide

/-- A14: the carry remains. -/
theorem test_addReg_vF : after1 (start 0x8F14 [(0xF#4, 3#8), (1#4, 2#8)])
    (fun t => t.reg 0xF#4 == 0#8) = true := by decide

/-- A16: strict. -/
theorem test_subReg : after1 (start 0x8125 [(1#4, 5#8), (2#4, 5#8)])
    (fun t => t.reg 1#4 == 0#8 && t.reg 0xF#4 == 0#8) = true := by decide

/-- A20: the difference remains. -/
theorem test_subReg_vF : after1 (start 0x8F15 [(0xF#4, 7#8), (1#4, 2#8)])
    (fun t => t.reg 0xF#4 == 5#8) = true := by decide

/-- A22: Vy unused. -/
theorem test_shr : after1 (start 0x8126 [(1#4, 3#8), (2#4, 0xAA#8)])
    (fun t => t.reg 1#4 == 1#8 && t.reg 0xF#4 == 1#8 && t.reg 2#4 == 0xAA#8) = true := by decide

/-- A24. -/
theorem test_shr_vF : after1 (start 0x8F06 [(0xF#4, 5#8)])
    (fun t => t.reg 0xF#4 == 2#8) = true := by decide

/-- A26. -/
theorem test_subnReg : after1 (start 0x8127 [(1#4, 6#8), (2#4, 5#8)])
    (fun t => t.reg 1#4 == 0xFF#8 && t.reg 0xF#4 == 0#8) = true := by decide

/-- A28. -/
theorem test_subnReg_vF : after1 (start 0x8F17 [(0xF#4, 2#8), (1#4, 7#8)])
    (fun t => t.reg 0xF#4 == 5#8) = true := by decide

/-- A29. -/
theorem test_shl : after1 (start 0x812E [(1#4, 0x81#8), (2#4, 0x55#8)])
    (fun t => t.reg 1#4 == 2#8 && t.reg 0xF#4 == 1#8 && t.reg 2#4 == 0x55#8) = true := by decide

/-- A32. -/
theorem test_shl_vF : after1 (start 0x8F0E [(0xF#4, 0x81#8)])
    (fun t => t.reg 0xF#4 == 2#8) = true := by decide

/-- M1. -/
theorem test_ldI : after1 (start 0xA123 [])
    (fun t => t.i == 0x123#12) = true := by decide

/-- F12: V0 is used, not V3. -/
theorem test_jpV0 : after1 (start 0xB300 [(0#4, 0xFF#8), (3#4, 0x10#8)])
    (fun t => t.pc == 0x3FF#12 && t.reg 0xF#4 == 0#8) = true := by decide

/-- F11. -/
theorem test_jpV0_wraps : after1 (start 0xBFFF [(0#4, 2#8)])
    (fun t => t.pc == 0x001#12) = true := by decide

/-- W4 with the sprite of row 0 clipped at the right edge. -/
theorem test_drw_clips : after1 (((start 0xD011 [(0#4, 60#8)]).memWriteBytes 0x300 [0xFF#8]).setI 0x300#12)
    (fun t => t.disp.pixel 60 && t.disp.pixel 63 && !t.disp.pixel 59 && !t.disp.pixel 64 && !t.disp.pixel 0 &&
    !t.disp.pixel 3 && t.reg 0xF#4 == 0#8 && t.draw) = true := by decide

/-- W13. -/
theorem test_drw_collides : after1 (((start 0xD011 []).memWriteBytes 0x300 [0xC0#8]).setI 0x300#12 |>.setDisp
    (Display.toggle Display.clear 0 0))
    (fun t => !t.disp.pixel 0 && t.disp.pixel 1 && t.reg 0xF#4 == 1#8) = true := by decide

/-- T1c: the index is masked. -/
theorem test_skp : after1 ((start 0xE19E [(1#4, 0x1A#8)]).setKey (State.reset.key.set 10 true))
    (fun t => t.pc == 0x204#12) = true := by decide

/-- T1b. -/
theorem test_skp_not : after1 (start 0xE19E [(1#4, 5#8)])
    (fun t => t.pc == 0x202#12) = true := by decide

/-- T2. -/
theorem test_sknp : after1 (start 0xE1A1 [(1#4, 5#8)])
    (fun t => t.pc == 0x204#12) = true := by decide

/-- T2b. -/
theorem test_sknp_not : after1 ((start 0xE1A1 [(1#4, 5#8)]).setKey (State.reset.key.set 5 true))
    (fun t => t.pc == 0x202#12) = true := by decide

/-- T5: DT is read before the tick. -/
theorem test_ldFromDt : after1 ((start 0xF207 []).setDt 2#8)
    (fun t => t.reg 2#4 == 2#8 && t.dt == 1#8) = true := by decide

/-- T3b: the least key. -/
theorem test_waitKey : after1 ((start 0xF30A [(3#4, 0x77#8)]).setKey
    ((State.reset.key.set 7 true).set 9 true))
    (fun t => t.reg 3#4 == 7#8 && t.pc == 0x202#12) = true := by decide

/-- T3, first cycle. -/
theorem test_waitKey_polls : after1 ((start 0xF30A [(3#4, 0x77#8)]).setDt 2#8)
    (fun t => t.reg 3#4 == 0x77#8 && t.pc == 0x200#12 && t.dt == 1#8) = true := by decide

/-- T6. -/
theorem test_ldToDt : after1 (start 0xF015 [(0#4, 5#8)])
    (fun t => t.dt == 4#8) = true := by decide

/-- T7. -/
theorem test_ldToSt : after1 (start 0xF118 [(1#4, 3#8)])
    (fun t => t.st == 2#8) = true := by decide

/-- M4. -/
theorem test_addI : after1 ((start 0xF21E [(2#4, 1#8)]).setI 0xFFF#12)
    (fun t => t.i == 0#12 && t.reg 0xF#4 == 1#8) = true := by decide

/-- M6: the old VF is added, then the flag. -/
theorem test_addI_vF : after1 ((start 0xFF1E [(0xF#4, 3#8)]).setI 0xFFE#12)
    (fun t => t.i == 1#12 && t.reg 0xF#4 == 1#8) = true := by decide

/-- M9: no mask. -/
theorem test_ldGlyph : after1 (start 0xF029 [(0#4, 0xFF#8)])
    (fun t => t.i == 0x4FB#12) = true := by decide

/-- M10c: the last three cells. -/
theorem test_storeBcd : after1 ((start 0xF033 [(0#4, 255#8)]).setI 0xFFD#12)
    (fun t => t.memRead 0xFFD == 2#8 && t.memRead 0xFFE == 5#8 && t.memRead 0xFFF == 5#8 &&
    t.report.code == .noCondition) = true := by decide

/-- M11. -/
theorem test_storeBcd_out : after1 ((start 0xF033 [(0#4, 255#8)]).setI 0xFFE#12)
    (fun t => t.memRead 0xFFE == 0#8 && t.memRead 0xFFF == 0#8 && t.pc == 0x202#12 && t.err == 0b0100#4 &&
    t.report == { code := .outOfBounds, iaddr := 0x200#12, word := 0xF033#16, addr := 0x1000#13 }) = true := by decide

/-- M15. -/
theorem test_storeRegs : after1 ((start 0xF355 [(0#4, 1#8), (1#4, 2#8), (2#4, 3#8), (3#4, 4#8)]).setI 0xFFC#12)
    (fun t => t.memRead 0xFFC == 1#8 && t.memRead 0xFFD == 2#8 && t.memRead 0xFFE == 3#8 &&
    t.memRead 0xFFF == 4#8 && t.i == 0#12 && t.reg 0xF#4 == 0#8) = true := by decide

/-- M16. -/
theorem test_storeRegs_out : after1 ((start 0xF355 [(0#4, 1#8)]).setI 0xFFE#12)
    (fun t => t.memRead 0xFFE == 0#8 && t.i == 0xFFE#12 &&
    t.report == { code := .outOfBounds, iaddr := 0x200#12, word := 0xF355#16, addr := 0x1001#13 }) = true := by decide

/-- M19: glyph 0. -/
theorem test_loadRegs : after1 (start 0xF465 [])
    (fun t => t.reg 0#4 == 0xF0#8 && t.reg 1#4 == 0x90#8 && t.reg 4#4 == 0xF0#8 && t.reg 5#4 == 0#8 &&
    t.i == 5#12) = true := by decide

/-- M18. -/
theorem test_loadRegs_out : after1 ((start 0xFF65 [(0#4, 7#8)]).setI 0xFF8#12)
    (fun t => t.reg 0#4 == 7#8 && t.i == 0xFF8#12 && t.report.addr == 0x1007#13) = true := by decide

/-- A33 and A36, for the random bytes the vectors name. -/
theorem test_rnd : (State.reset.withRandom 3#4 0x0F#8 0xA7#8).reg 3#4 = 0x07#8 ∧
    (State.reset.withRandom 3#4 0xF0#8 0xFF#8).reg 3#4 = 0xF0#8 := by decide

/-! ## The cycle around an instruction -/

/-- Y13: the fetch at 0xFFF fails. -/
theorem test_fetch_at_top : after1 (State.reset.setPc 0xFFF#12)
    (fun t => t.pc == 0x001#12 && t.err == 0b0100#4 &&
      t.report == { code := .outOfBounds, iaddr := 0xFFF#12, word := 0#16, addr := 0x1000#13 }) = true := by
  decide

/-- Y12: a normal fetch at 0xFFE, and PC wraps. -/
theorem test_fetch_below_top : after1 ((State.reset.setPc 0xFFE#12).withFetchWord 16 0x6A01)
    (fun t => t.reg 0xA#4 == 1#8 && t.pc == 0#12) = true := by decide

/-- Y2 and Y15: an UNKNOWN word reports, advances and ticks. -/
theorem test_unknown_word : after1 ((State.reset.setDt 3#8).setSt 1#8)
    (fun t => t.pc == 0x202#12 && t.err == 0b0001#4 && t.dt == 2#8 && t.st == 0#8 &&
      t.report == { code := .unknownOpcode, iaddr := 0x200#12, word := 0#16, addr := 0#13 }) = true := by
  decide

/-- Y16, third cycle: with ratio 3 and TDIV = 2 the timers tick. -/
theorem test_timer_divider : after1 { start 0x6000 [] with
    cfg := { Config.default with cyclesPerTimerTick := 3 }, tdiv := 2, dt := 2#8 }
    (fun t => t.dt == 1#8 && t.tdiv == 0) = true := by decide

/-! ## The host's operations -/

/-- H5: loading is no reset. -/
theorem test_loadProgram : afterCall (.loadProgram [0x12#8, 0x00#8]) (State.reset.setPc 0x345#12)
    (fun t r => t.memRead 0x200 == 0x12#8 && t.memRead 0x201 == 0#8 && t.pc == 0x345#12 && r == .done) = true := by
  decide

/-- H6 and the index above 15 of R234. -/
theorem test_setKeyState :
    afterCall (.setKeyState 9 true) State.reset (fun t r => t.keyDown 9#4 && r == .done) = true ∧
    afterCall (.setKeyState 16 true) State.reset
      (fun t r => t == State.reset && r == .failed .keyOutOfBounds) = true := by decide

/-- H7. -/
theorem test_consumeDirtyFlag : afterCall .consumeDirtyFlag (State.reset.setDraw true)
    (fun t r => !t.draw && r == .dirty true) = true := by decide

/-- H1: reset forgets a run. -/
theorem test_resetCore : afterCall .resetCore ((start 0x1ABC [(1#4, 9#8)]).setPc 0x345#12)
    (fun t _ => t == State.reset) = true := by decide

/-! ## Witnesses: each obligation's hypotheses are met, at the boundary of each clause -/

/-- A state in range with every bound reached: a full stack, and TDIV one below the timer ratio. -/
def edge : State :=
  { start 0x00EE [] with
    stack := [0x202#12], tdiv := 2
    cfg := { Config.default with stackDepth := some 1, cyclesPerTimerTick := 3 } }

theorem edge_inv : Inv edge where
  memory := by decide
  divider := by decide
  depth d h := by cases h; decide

theorem executes_start {s : State} {iw : Word} {i : Instr} (hf : s.fetchWord = some iw)
    (hd : decodeWord iw = .ok i) : Executes s i := ⟨iw, hf, hd⟩

theorem witness_ResetGivesTabledValues :
    (15 < 16 ∧ 4 < 5 ∧ State.reset.memRead (5 * 15 + 4) = 0x80#8) ∧
    (80 ≤ 80 ∧ State.reset.memRead 80 = 0#8) := by decide

theorem witness_HostResetIgnoresOldState :
    State.reset.cfg = (start 0x1ABC [(1#4, 9#8)]).cfg ∧ State.reset ≠ start 0x1ABC [(1#4, 9#8)] := by
  decide

theorem witness_ResetMeetsRangeInvariant : Config.default.Wf ∧ edge.cfg.Wf := by decide

theorem witness_StepKeepsRangeInvariant : Inv edge ∧ ∃ t, step edge = .next t :=
  ⟨edge_inv, _, rfl⟩

theorem witness_HostCallsKeepRangeInvariant :
    Inv edge ∧ ∃ t r, hostCall (.loadProgram [0x12#8, 0x00#8]) edge = .next (t, r) :=
  ⟨edge_inv, _, _, rfl⟩

/-- PC = 0xFFF on one side, PC = 0xFFE on the other, with a word of each kind there. -/
theorem witness_CycleRunsDecodedInstruction :
    0xFFF < (State.reset.setPc 0xFFF#12).pc.toNat + 1 ∧
    ((State.reset.setPc 0xFFE#12).pc.toNat + 1 ≤ 0xFFF ∧
      (State.reset.setPc 0xFFE#12).fetchWord = some 0x0000#16 ∧
      decodeWord 0x0000#16 = .error .unknownFamily0) ∧
    (((State.reset.setPc 0xFFE#12).withFetchWord 16 0x6A01).fetchWord = some 0x6A01#16 ∧
      decodeWord 0x6A01#16 = .ok (.ldImm 0xA#4 1#8)) := by decide

theorem witness_UnknownWordIsReportedNoOp :
    (start 0x8128 []).fetchWord = some 0x8128#16 ∧ decodeWord 0x8128#16 = .error .unknownFamily8 := by
  decide

theorem witness_FetchAtTopReportsAndGoesOn : (State.reset.setPc 0xFFF#12).pc = 0xFFF#12 := rfl

theorem witness_ReportedConditionHasNoOtherEffect :
    ∃ t, step (start 0x00EE []) = .next t ∧ t.report.code ≠ .noCondition :=
  ⟨_, rfl, by decide⟩

theorem witness_DiagnosticsDoNotFeedBack :
    (State.reset.setErr 0b1111#4).withoutDiagnostics = State.reset.withoutDiagnostics ∧
    State.reset.setErr 0b1111#4 ≠ State.reset := by decide

theorem witness_RandomByteUsedByRndOnly :
    ∀ x kk, ¬ Executes (start 0x6A01 []) (.rnd x kk) := by
  intro x kk h
  rw [executes_iff (iw := 0x6A01#16) (j := .ldImm 0xA#4 1#8) (by decide) (by decide)] at h
  cases h

theorem witness_EncodeOfDecodeIsIdentity : decodeWord 0x912F#16 = .ok (.sneReg 1#4 2#4 0xF#4) := by
  decide

/-- Rows whose masks differ, at the ends of the map. -/
theorem witness_OpcodeMapSelectsOneRow :
    decodeWord 0x00E0#16 = .ok .cls ∧ Instr.cls.row.selects 0x00E0#16 = true ∧
    decodeWord 0xFF65#16 = .ok (.loadRegs 0xF#4) ∧
    (Instr.loadRegs 0#4).row.selects 0xFF65#16 = true := by decide

/-- Every line of the list is met, beside a word that is on no line. -/
theorem witness_UnknownWordsAreTheListed :
    decodeWord 0x0FFF#16 = .error .unknownFamily0 ∧ fieldOp 0x0FFF#16 = 0x0#4 ∧
    decodeWord 0x800F#16 = .error .unknownFamily8 ∧ fieldN 0x800F#16 = 0xF#4 ∧
    decodeWord 0xE000#16 = .error .unknownFamilyE ∧ fieldKk 0xE000#16 = 0#8 ∧
    decodeWord 0xFFFF#16 = .error .unknownFamilyF ∧ fieldKk 0xFFFF#16 = 0xFF#8 ∧
    decodeWord 0x8FF0#16 = .ok (.ldReg 0xF#4 0xF#4) := by decide

theorem witness_PlacedWordIsFetched :
    Memory.wf edge.cfg.font edge.mem = true ∧ 65535 < 65536 ∧
    ((State.reset.setPc 0xFFF#12).withFetchWord 16 65535).fetchWord = some 0xFFFF#16 := by decide

/-- One entry below the depth, the depth reached, and no depth. -/
theorem witness_CallPushesOrReports :
    (edge.setStack []).cfg.stackDepth ≠ some (edge.setStack []).stack.length ∧
    edge.cfg.stackDepth = some edge.stack.length ∧
    State.reset.cfg.stackDepth ≠ some State.reset.stack.length := by decide

theorem witness_ReturnPopsOrReports :
    edge.stack = [] ++ [0x202#12] ∧ (edge.setStack []).stack = [] := by decide

theorem witness_CallThenReturnComesBack :
    State.reset.cfg.stackDepth ≠ some State.reset.stack.length ∧
    ∃ t, exec (.call 0x300#12) State.reset = .next t ∧
      (edge.setStack [State.reset.pc]).stack = t.stack :=
  ⟨by decide, _, rfl, by decide⟩

/-- x = V1, and the clause `x ≠ vF` at the register below VF; x = F takes the other form. -/
theorem witness_AddSetsCarryLast : (0xE#4 : Nibble) ≠ vF ∧ (0xF#4 : Nibble) = vF := by decide
theorem witness_SubtractSetsNoBorrowFirst : (0xE#4 : Nibble) ≠ vF ∧ (0xF#4 : Nibble) = vF := by decide
theorem witness_ShiftsSetShiftedOutBitFirst : (0#4 : Nibble) ≠ vF ∧ (0xF#4 : Nibble) = vF := by decide

/-- A sum that just fits 0xFFF and one that just passes it. -/
theorem witness_AddToIndexSetsOverflow :
    ¬ 0xFFF < (0xF00#12 : Addr).toNat + (0xFF#8 : Byte).toNat ∧
    0xFFF < (0xFFF#12 : Addr).toNat + (1#8 : Byte).toNat := by decide

/-- I + 2 = 0xFFF and I + 2 = 0x1000. -/
theorem witness_StoreDecimalDigitsAtIndex :
    Memory.wf State.reset.cfg.font State.reset.mem = true ∧
    (State.reset.setI 0xFFD#12).i.toNat + 2 ≤ 0xFFF ∧
    0xFFF < (State.reset.setI 0xFFE#12).i.toNat + 2 := by decide

/-- I + x = 0xFFF and I + x = 0x1000, with the largest x and the least; a register inside and one outside. -/
theorem witness_StoreRegistersAtIndex :
    Memory.wf State.reset.cfg.font State.reset.mem = true ∧
    (State.reset.setI 0xFF0#12).i.toNat + (0xF#4 : Nibble).toNat ≤ 0xFFF ∧
    (State.reset.setI 0xFFF#12).i.toNat + (0#4 : Nibble).toNat ≤ 0xFFF ∧
    0xFFF < (State.reset.setI 0xFF1#12).i.toNat + (0xF#4 : Nibble).toNat ∧
    0xFFF < (State.reset.setI 0xFFF#12).i.toNat + (1#4 : Nibble).toNat := by decide

theorem witness_LoadRegistersFromIndex :
    (State.reset.setI 0xFF0#12).i.toNat + (0xF#4 : Nibble).toNat ≤ 0xFFF ∧
    (3#4 : Nibble).toNat ≤ (3#4 : Nibble).toNat ∧ (3#4 : Nibble).toNat < (4#4 : Nibble).toNat ∧
    0xFFF < (State.reset.setI 0xFF1#12).i.toNat + (0xF#4 : Nibble).toNat := by decide

theorem witness_StoreThenLoadRestoresRegisters :
    Memory.wf State.reset.cfg.font State.reset.mem = true ∧
    (State.reset.setI 0xFF0#12).i.toNat + (0xF#4 : Nibble).toNat ≤ 0xFFF := by decide

theorem witness_ClearDisplaySetsDraw : 2047 < 2048 ∧
    Display.pixel (Display.toggle Display.clear 63 31) 2047 = true := by decide

/-- n = 0 with I at the top, the last sprite in bounds, the first out of bounds, and the cell at the corner. -/
theorem witness_DrawFlipsCoveredCells :
    ((0#4 : Nibble) = 0#4 ∨ (State.reset.setI 0xFFF#12).i.toNat + 0 - 1 ≤ 0xFFF) ∧
    (State.reset.setI 0xFFF#12).i.toNat + (1#4 : Nibble).toNat - 1 ≤ 0xFFF ∧
    ((2#4 : Nibble) ≠ 0#4 ∧ 0xFFF < (State.reset.setI 0xFFF#12).i.toNat + (2#4 : Nibble).toNat - 1) ∧
    (63 ≤ 63 ∧ 31 ≤ 31 ∧
      spriteCovers (((start 0xD011 [(0#4, 63#8), (1#4, 31#8)]).memWriteBytes 0x300 [0x80#8]).setI 0x300#12)
        0#4 1#4 1#4 63 31 = true) := by decide

theorem witness_DrawingTwiceRestoresDisplay :
    (0xE#4 : Nibble) ≠ vF ∧ (0#4 : Nibble) ≠ vF ∧
    (State.reset.setI 0xFFF#12).i.toNat + (1#4 : Nibble).toNat - 1 ≤ 0xFFF := by decide

theorem witness_KeySkips :
    (0xA#4 : Nibble).toNat = ((start 0xE19E [(1#4, 0x1A#8)]).reg 1#4).toNat % 16 := by decide

/-- Every key up; the last key alone down; the first key down. -/
theorem witness_WaitForKeyPollsOrLoads :
    (∀ k, State.reset.keyDown k = false) ∧
    ((State.reset.setKey (State.reset.key.set 15 true)).keyDown 15#4 = true ∧
      ∀ j : Nibble, j.toNat < (15#4 : Nibble).toNat →
        (State.reset.setKey (State.reset.key.set 15 true)).keyDown j = false) ∧
    (State.reset.setKey (State.reset.key.set 0 true)).keyDown 0#4 = true := by decide

theorem witness_TimerTransfers : State.reset.cfg.cyclesPerTimerTick = 1 ∧ State.reset.tdiv = 0 := by
  decide

theorem witness_TimersTickInEveryCycle :
    (∀ x, ¬ Executes edge (.ldToDt x)) ∧ (∀ x, ¬ Executes edge (.ldToSt x)) ∧
    edge.tdiv + 1 = edge.cfg.cyclesPerTimerTick := by
  have h := executes_iff (s := edge) (iw := 0x00EE#16) (j := .ret) (by decide) (by decide)
  refine ⟨fun x hx => ?_, fun x hx => ?_, by decide⟩ <;> cases (h _).mp hx

/-- DT = 1 over two cycles of UNKNOWN words: the count reaches 0 and stays there. -/
theorem witness_DelayTimerCountsDownOverCycles :
    (State.reset.setDt 1#8).cfg.cyclesPerTimerTick = 1 ∧ (State.reset.setDt 1#8).tdiv = 0 ∧
    ∀ j u, j < 2 → cycles j (State.reset.setDt 1#8) = .next u → ∀ x, ¬ Executes u (.ldToDt x) := by
  refine ⟨by decide, by decide, fun j u hj hu x => ?_⟩
  have h0 : (State.reset.setDt 1#8).fetchWord = some 0#16 := by decide
  have h1 : (((State.reset.setDt 1#8).unknownWord 0#16).finishCycle).fetchWord = some 0#16 := by decide
  have hd : decodeWord 0#16 = .error .unknownFamily0 := by decide
  obtain rfl | rfl : j = 0 ∨ j = 1 := by omega
  · have : Host.Outcome.next (State.reset.setDt 1#8) = .next u := hu
    cases this
    exact not_executes_of_unknown h0 hd _
  · have hs : step (State.reset.setDt 1#8) =
        .next ((State.reset.setDt 1#8).unknownWord 0#16).finishCycle := by
      unfold step
      rw [h0]
      simp only [hd]
    have : cycles 1 (State.reset.setDt 1#8) =
        .next ((State.reset.setDt 1#8).unknownWord 0#16).finishCycle := by
      simp only [cycles, List.replicate, hostRun, hostCall, hs]
    rw [this] at hu
    cases hu
    exact not_executes_of_unknown h1 hd _

/-- A cycle that executes 6A7B executes nothing that writes I, STACK, DISP or MEM, nor any register but VA. -/
theorem only_ldImm (i : Instr) (h : Executes (start 0x6A7B []) i) : i = .ldImm 0xA#4 0x7B#8 :=
  (executes_iff (iw := 0x6A7B#16) (by decide) (by decide) i).mp h

theorem witness_IndexChangedOnlyByItsInstructions :
    ∀ i, Executes (start 0x6A7B []) i → Instr.writesIndex i = false := by
  intro i h; rw [only_ldImm i h]; rfl
theorem witness_StackChangedOnlyByCallAndReturn :
    ∀ i, Executes (start 0x6A7B []) i → Instr.writesStack i = false := by
  intro i h; rw [only_ldImm i h]; rfl
theorem witness_DisplayChangedOnlyByClearAndDraw :
    (∀ i, Executes (start 0x6A7B []) i → Instr.writesDisplay i = false) ∧
    (State.reset.setDraw true).draw = true := by
  refine ⟨fun i h => ?_, rfl⟩; rw [only_ldImm i h]; rfl
theorem witness_MemoryChangedOnlyByStores :
    ∀ i, Executes (start 0x6A7B []) i → Instr.writesMemory i = false := by
  intro i h; rw [only_ldImm i h]; rfl
theorem witness_RegistersChangedOnlyByTheirWriters :
    ∀ i, Executes (start 0x6A7B []) i →
      Instr.writesOperand vF i = false ∧ (vF = vF → Instr.writesFlag i = false) := by
  intro i h; rw [only_ldImm i h]; decide

/-- 8014, and D012 at the top of memory, which reports. -/
theorem witness_FlagIsZeroOrOne :
    Executes (start 0x8014 []) (.addReg 0#4 1#4) ∧ Instr.writesFlag (.addReg 0#4 1#4) = true ∧
    Instr.writesOperand vF (.addReg 0#4 1#4) = false ∧
    after1 (start 0x8014 []) (fun t => t.report.code == .noCondition) = true ∧
    Instr.writesOperand vF (.addReg 0xF#4 1#4) = true :=
  ⟨executes_start (iw := 0x8014#16) (by decide) (by decide), by decide, by decide, by decide, by decide⟩

theorem witness_JumpToSelfChangesOnlyTimers : Executes (start 0x1200 []) (.jp (start 0x1200 []).pc) :=
  executes_start (iw := 0x1200#16) (by decide) (by decide)

/-- The longest image that fits and the shortest that does not; the first byte and the last. -/
theorem witness_LoadProgramCopiesImageOnly :
    Memory.wf State.reset.cfg.font State.reset.mem = true ∧
    (List.replicate 3584 0xAA#8).length ≤ 3584 ∧ 0 < 3584 ∧ 3583 < 3584 ∧
    3584 < (List.replicate 3585 0xAA#8).length :=
  ⟨by decide, List.length_replicate.le, by decide, by decide, by rw [List.length_replicate]; decide⟩

theorem witness_SetKeyStateSetsOneKey : (15#4 : Nibble).toNat = 15 ∧ 15 < 16 ∧ (14#4 : Nibble) ≠ 15#4 := by
  decide

theorem witness_HostReadsAndDirtyFlag : 63 < 64 ∧ 31 < 32 ∧ 63 + 31 * 64 = 2047 := by decide

end Sys2Proof.Tests
end

section
/-! The jumps 1NNN and BNNN (41_flow.md R141, R143): their words, BNNN's target, and O21. -/

namespace Sys2Proof

/-- Family 1 is 1NNN whatever the low twelve bits are (R95, R97). -/
theorem decodeWord_formatA_jp (nnn : Addr) : decodeWord (formatA 0x1#4 nnn) = .ok (.jp nnn) := by
  simp [decodeWord]

/-- Family B is BNNN whatever the low twelve bits are (R95, R97). -/
theorem decodeWord_formatA_jpV0 (nnn : Addr) :
    decodeWord (formatA 0xB#4 nnn) = .ok (.jpV0 nnn) := by
  simp [decodeWord]

end Sys2Proof

namespace Sys2Proof.Machine

/-- Widening the byte loses nothing, so the only reduction is that of the sum (R143). -/
theorem toNat_jumpTarget (nnn : Addr) (a : Byte) :
    (jumpTarget nnn a).toNat = (nnn.toNat + a.toNat) % 4096 := by
  have widened : (a.setWidth 12).toNat = a.toNat := BitVec.toNat_setWidth_of_le (by decide)
  rw [jumpTarget, BitVec.toNat_add, widened]

/-- Settles O21: both jumps are a single `setPc`, to nnn and to BNNN's reduced sum. -/
theorem jumpsSetPcOnly : Obligations.JumpsSetPcOnly := by
  intro nnn s
  refine ⟨decodeWord_formatA_jp nnn, decodeWord_formatA_jpV0 nnn, ?jump, ?jumpOffset⟩
  case jump => exact ⟨s.setPc nnn, exec_eq _ s, s.setPc_pc nnn, OnlyPc.setPc s nnn⟩
  case jumpOffset =>
    exact ⟨s.setPc (jumpTarget nnn (s.reg 0#4)), exec_eq _ s, toNat_jumpTarget nnn (s.reg 0#4),
      OnlyPc.setPc s _⟩

end Sys2Proof.Machine
end

section
/-! The loads, 7XKK and the logic operations (43_alu.md R161 to R166): their words, the one register each
writes, and O27 to O29. -/

namespace Sys2Proof

/-- Family 6 is 6XKK whatever its fields are (R95, R97). -/
theorem decodeWord_formatRI_ldImm (x : Nibble) (kk : Byte) :
    decodeWord (formatRI 0x6#4 x kk) = .ok (.ldImm x kk) := by
  simp [decodeWord]

/-- Family 7 is 7XKK whatever its fields are (R95, R97). -/
theorem decodeWord_formatRI_addImm (x : Nibble) (kk : Byte) :
    decodeWord (formatRI 0x7#4 x kk) = .ok (.addImm x kk) := by
  simp [decodeWord]

/-- A word of family 8 goes to the second level, whatever its fields are (R95, R98). -/
theorem decodeWord_formatRRN_family8 (x y n : Nibble) :
    decodeWord (formatRRN 0x8#4 x y n) = decodeFamily8 (formatRRN 0x8#4 x y n) := by
  simp [decodeWord]

theorem decodeWord_formatRRN_ldReg (x y : Nibble) :
    decodeWord (formatRRN 0x8#4 x y 0x0#4) = .ok (.ldReg x y) := by
  simp [decodeWord_formatRRN_family8, decodeFamily8]

theorem decodeWord_formatRRN_orReg (x y : Nibble) :
    decodeWord (formatRRN 0x8#4 x y 0x1#4) = .ok (.orReg x y) := by
  simp [decodeWord_formatRRN_family8, decodeFamily8]

theorem decodeWord_formatRRN_andReg (x y : Nibble) :
    decodeWord (formatRRN 0x8#4 x y 0x2#4) = .ok (.andReg x y) := by
  simp [decodeWord_formatRRN_family8, decodeFamily8]

theorem decodeWord_formatRRN_xorReg (x y : Nibble) :
    decodeWord (formatRRN 0x8#4 x y 0x3#4) = .ok (.xorReg x y) := by
  simp [decodeWord_formatRRN_family8, decodeFamily8]

end Sys2Proof

namespace Sys2Proof.Machine

/-- An instruction whose meaning is a single register write completes with that value in the register and
nothing else changed, whichever register it is. -/
theorem exec_of_after_eq_setReg {i : Instr} {s : State} {x : Nibble} {b : Byte}
    (h : after i s = s.setReg x b) :
    ∃ t, exec i s = .next t ∧ t.reg x = b ∧ OnlyRegs [x] s t := by
  refine ⟨s.setReg x b, ?completes, ?value, OnlyRegs.setReg s (List.mem_singleton_self x) b⟩
  case completes => rw [exec_eq, h]
  case value => rw [State.reg_setReg, if_pos rfl]

/-- The same with the written value given bit by bit, as the logic operations are stated (R164 to R166). -/
theorem exec_of_after_eq_setReg_bits {i : Instr} {s : State} {x : Nibble} {b : Byte} {bit : Nat → Bool}
    (h : after i s = s.setReg x b) (hbit : ∀ k, b.getLsbD k = bit k) :
    ∃ t, exec i s = .next t ∧ OnlyRegs [x] s t ∧ ∀ k, (t.reg x).getLsbD k = bit k := by
  obtain ⟨t, completes, value, frame⟩ := exec_of_after_eq_setReg h
  exact ⟨t, completes, frame, fun k => by rw [value, hbit]⟩

/-- Settles O27: both loads are a single register write. -/
theorem loadsWriteOneRegister : Obligations.LoadsWriteOneRegister := by
  intro x y kk s
  exact ⟨decodeWord_formatRI_ldImm x kk, decodeWord_formatRRN_ldReg x y,
    exec_of_after_eq_setReg rfl, exec_of_after_eq_setReg rfl⟩

/-- Settles O28: 7XKK is a single register write, of a sum that its eight bits reduce modulo 256 (R160). -/
theorem addImmediateSetsNoFlag : Obligations.AddImmediateSetsNoFlag := by
  intro x kk s
  obtain ⟨t, completes, value, frame⟩ :=
    exec_of_after_eq_setReg (i := .addImm x kk) (s := s) rfl
  exact ⟨decodeWord_formatRI_addImm x kk, t, completes, by rw [value, BitVec.toNat_add], frame⟩

/-- Settles O29: each logic operation is a single register write, so VF is written only as Vx. -/
theorem logicWritesNoFlag : Obligations.LogicWritesNoFlag := by
  intro x y s
  refine ⟨decodeWord_formatRRN_orReg x y, decodeWord_formatRRN_andReg x y,
    decodeWord_formatRRN_xorReg x y, ?or, ?and, ?xor⟩
  case or => exact exec_of_after_eq_setReg_bits rfl fun _ => BitVec.getLsbD_or
  case and => exact exec_of_after_eq_setReg_bits rfl fun _ => BitVec.getLsbD_and
  case xor => exact exec_of_after_eq_setReg_bits rfl fun _ => BitVec.getLsbD_xor

end Sys2Proof.Machine
end

section
/-! The index register without memory transfer: ANNN, FX1E and FX29 (44_index_memory.md R180 to R182): their
words, FX1E's sum and flag and FX29's address as numbers, and O34 and O35. -/

namespace Sys2Proof

/-- Family A is ANNN whatever the low twelve bits are (R95, R97). -/
theorem decodeWord_formatA_ldI (nnn : Addr) : decodeWord (formatA 0xA#4 nnn) = .ok (.ldI nnn) := by
  simp [decodeWord]

/-- A word of family F goes to the second level, whatever its fields are (R95, R99). -/
theorem decodeWord_formatRI_familyF (x : Nibble) (kk : Byte) :
    decodeWord (formatRI 0xF#4 x kk) = decodeFamilyF (formatRI 0xF#4 x kk) := by
  simp [decodeWord]

theorem decodeWord_formatRI_addI (x : Nibble) :
    decodeWord (formatRI 0xF#4 x 0x1E#8) = .ok (.addI x) := by
  simp [decodeWord_formatRI_familyF, decodeFamilyF]

theorem decodeWord_formatRI_ldGlyph (x : Nibble) :
    decodeWord (formatRI 0xF#4 x 0x29#8) = .ok (.ldGlyph x) := by
  simp [decodeWord_formatRI_familyF, decodeFamilyF]

end Sys2Proof

namespace Sys2Proof.Machine

/-- FX1E's index is the same 12-bit sum of an address and a byte as BNNN's target (R143, R181). -/
theorem toNat_indexSum (i : Addr) (a : Byte) : (indexSum i a).toNat = (i.toNat + a.toNat) % 4096 :=
  toNat_jumpTarget i a

/-- Five times a byte is at most 1275, so twelve bits hold the product unreduced (R182). -/
theorem toNat_glyphAddr (a : Byte) : (glyphAddr a).toNat = 5 * a.toNat := by
  have widened : (a.setWidth 12).toNat = a.toNat := BitVec.toNat_setWidth_of_le (by decide)
  have fits : 5 * a.toNat < 4096 := by have := a.isLt; omega
  rw [glyphAddr, BitVec.toNat_mul, widened]
  exact Nat.mod_eq_of_lt fits

/-- FX1E's flag is 1 exactly when the unreduced sum passes 0xFFF (R181). -/
theorem toNat_flagByte_indexOverflow (i : Addr) (a : Byte) :
    (flagByte (indexOverflow i a)).toNat = if 0xFFF < i.toNat + a.toNat then 1 else 0 := by
  rw [toNat_flagByte, indexOverflow]
  simp only [decide_eq_true_eq]

/-- An instruction whose meaning is a single write of I completes with that value in I and nothing else
changed. -/
theorem exec_of_after_eq_setI {i : Instr} {s : State} {a : Addr} (h : after i s = s.setI a) :
    ∃ t, exec i s = .next t ∧ t.i = a ∧ SameMemory s t ∧ t = { s with i := t.i } := by
  refine ⟨s.setI a, ?completes, s.setI_i a, s.setI_memRead a, rfl⟩
  case completes => rw [exec_eq, h]

/-- Settles O34: ANNN and FX29 are a single write of I, of nnn and of five times the whole Vx. -/
theorem indexLoads : Obligations.IndexLoads := by
  intro nnn x s
  refine ⟨decodeWord_formatA_ldI nnn, decodeWord_formatRI_ldGlyph x, exec_of_after_eq_setI rfl, ?glyph⟩
  case glyph =>
    obtain ⟨t, completes, value, frame⟩ := exec_of_after_eq_setI (i := .ldGlyph x) (s := s) rfl
    exact ⟨t, completes, by rw [value, toNat_glyphAddr], frame⟩

/-- Settles O35: FX1E writes I and then VF, both from the old I and Vx. The write of VF comes last, so VF
holds the flag even when Vx is VF (R125). -/
theorem addToIndexSetsOverflow : Obligations.AddToIndexSetsOverflow := by
  intro x s
  refine ⟨decodeWord_formatRI_addI x, after (.addI x) s, exec_eq _ s, ?index, ?flag, ?otherRegs,
    SameMemory.of_eq rfl rfl, rfl⟩
  case index => exact toNat_indexSum s.i (s.reg x)
  case flag =>
    rw [after, State.reg_setReg, if_pos rfl]
    exact toNat_flagByte_indexOverflow s.i (s.reg x)
  case otherRegs =>
    intro z hz
    rw [after, State.reg_setReg, if_neg hz, State.setI_reg]

end Sys2Proof.Machine
end

section
/-! The timer transfers FX07, FX15 and FX18 (46_keypad_timers.md R213 to R215): their words, the tick at the
end of the same cycle, and O45. -/

namespace Sys2Proof

theorem decodeWord_formatRI_ldFromDt (x : Nibble) :
    decodeWord (formatRI 0xF#4 x 0x07#8) = .ok (.ldFromDt x) := by
  simp [decodeWord_formatRI_familyF, decodeFamilyF]

theorem decodeWord_formatRI_ldToDt (x : Nibble) :
    decodeWord (formatRI 0xF#4 x 0x15#8) = .ok (.ldToDt x) := by
  simp [decodeWord_formatRI_familyF, decodeFamilyF]

theorem decodeWord_formatRI_ldToSt (x : Nibble) :
    decodeWord (formatRI 0xF#4 x 0x18#8) = .ok (.ldToSt x) := by
  simp [decodeWord_formatRI_familyF, decodeFamilyF]

end Sys2Proof

namespace Sys2Proof.Machine

/-- With the ratio 1 and the divider at 0 every cycle is one in which the divider reaches the ratio (R128). -/
theorem State.tdiv_reaches_ratio_one {s : State} (ratio : s.cfg.cyclesPerTimerTick = 1)
    (divider : s.tdiv = 0) : s.tdiv + 1 = s.cfg.cyclesPerTimerTick := by
  rw [ratio, divider]

theorem State.toNat_finishCycle_dt_of_reaches {s : State}
    (reaches : s.tdiv + 1 = s.cfg.cyclesPerTimerTick) :
    s.finishCycle.dt.toNat = s.dt.toNat - 1 := by
  rw [State.finishCycle_dt, State.timerTick_dt, if_pos reaches, toNat_countDown]

theorem State.toNat_finishCycle_st_of_reaches {s : State}
    (reaches : s.tdiv + 1 = s.cfg.cyclesPerTimerTick) :
    s.finishCycle.st.toNat = s.st.toNat - 1 := by
  rw [State.finishCycle_st, State.timerTick_st, if_pos reaches, toNat_countDown]

/-- Settles O45: FX07 is a single register write, FX15 and FX18 a single write of their timer. Neither moves
the divider, so the tick at the end of the cycle acts on the value just written (R128). -/
theorem timerTransfers : Obligations.TimerTransfers := by
  intro x s
  refine ⟨decodeWord_formatRI_ldFromDt x, decodeWord_formatRI_ldToDt x, decodeWord_formatRI_ldToSt x,
    exec_of_after_eq_setReg rfl, ?toDt, ?toSt⟩
  case toDt =>
    refine ⟨s.setDt (s.reg x), exec_eq _ s, s.setDt_dt _, s.setDt_memRead _, rfl, ?tick⟩
    case tick =>
      intro ratio divider
      have reaches := State.tdiv_reaches_ratio_one ratio divider
      exact State.toNat_finishCycle_dt_of_reaches (s := s.setDt (s.reg x)) reaches
  case toSt =>
    refine ⟨s.setSt (s.reg x), exec_eq _ s, s.setSt_st _, s.setSt_memRead _, rfl, ?tick⟩
    case tick =>
      intro ratio divider
      have reaches := State.tdiv_reaches_ratio_one ratio divider
      exact State.toNat_finishCycle_st_of_reaches (s := s.setSt (s.reg x)) reaches

end Sys2Proof.Machine
end

section
/-! Decoding and encoding are inverse to one another (30_encoding.md R93 to R102): the word of an instruction
decodes to it, a word that decodes is the word of its instruction, a word selects a row exactly when it is the
word of an instruction of that row, and the UNKNOWN words family by family; O15 to O19. -/

namespace Sys2Proof

/-! ## The word of an instruction decodes to it -/

/-- A word of family E goes to the second level, whatever its fields are (R95, R99). -/
theorem decodeWord_formatRI_familyE (x : Nibble) (kk : Byte) :
    decodeWord (formatRI 0xE#4 x kk) = decodeFamilyE (formatRI 0xE#4 x kk) := by
  simp [decodeWord]

/-- Every operand and every ignored field comes back (R93 to R100): the families with a second level by that
level, the others by the family nibble alone. -/
theorem decodeWord_encode (i : Instr) : decodeWord (encode i) = .ok i := by
  cases i
  case cls | ret => rfl
  case ldReg | orReg | andReg | xorReg | addReg | subReg | shr | subnReg | shl =>
    simp [encode, decodeWord_formatRRN_family8, decodeFamily8]
  case skp | sknp => simp [encode, decodeWord_formatRI_familyE, decodeFamilyE]
  case ldFromDt | waitKey | ldToDt | ldToSt | addI | ldGlyph | storeBcd | storeRegs | loadRegs =>
    simp [encode, decodeWord_formatRI_familyF, decodeFamilyF]
  all_goals simp [encode, decodeWord]

/-- Settles O15: the word by `decodeWord_encode`; its two bytes, high byte first, make that word again (R65). -/
theorem decodeOfEncodeIsIdentity : Obligations.DecodeOfEncodeIsIdentity := by
  intro i
  refine ⟨decodeWord_encode i, fun rest => ?bytes⟩
  case bytes =>
    simp only [encodeBytes, bytesOfWord, List.cons_append, List.nil_append, decode,
      wordOfBytes_bytesOfWord, decodeWord_encode]

/-- Settles O19: each sample is one evaluation of the decoder. -/
theorem sampleWordsDecode : Obligations.SampleWordsDecode := by
  unfold Obligations.SampleWordsDecode
  decide

/-! ## A word that decodes is the word of its instruction -/

/-- A word whose family nibble is known is that nibble in format A, R or RR with the word's own fields. -/
theorem formatA_of_fieldOp {iw : Word} {op : Nibble} (h : fieldOp iw = op) :
    formatA op (fieldNnn iw) = iw := by
  rw [← h, formatA_fields]

theorem formatRI_of_fieldOp {iw : Word} {op : Nibble} (h : fieldOp iw = op) :
    formatRI op (fieldX iw) (fieldKk iw) = iw := by
  rw [← h, formatRI_fields]

theorem formatRRN_of_fieldOp {iw : Word} {op : Nibble} (h : fieldOp iw = op) :
    formatRRN op (fieldX iw) (fieldY iw) (fieldN iw) = iw := by
  rw [← h, formatRRN_fields]

/-- The same with the second-level selector known as well. -/
theorem formatRI_of_fields {iw : Word} {op : Nibble} {kk : Byte} (hop : fieldOp iw = op)
    (hkk : fieldKk iw = kk) : formatRI op (fieldX iw) kk = iw := by
  rw [← hkk, formatRI_of_fieldOp hop]

theorem formatRRN_of_fields {iw : Word} {op n : Nibble} (hop : fieldOp iw = op)
    (hn : fieldN iw = n) : formatRRN op (fieldX iw) (fieldY iw) n = iw := by
  rw [← hn, formatRRN_of_fieldOp hop]

theorem encode_of_decodeFamily0 {iw : Word} {i : Instr} (hd : decodeFamily0 iw = .ok i) :
    encode i = iw := by
  unfold decodeFamily0 at hd
  split at hd
  · next h => cases hd; exact h.symm
  · split at hd
    · next h => cases hd; exact h.symm
    · cases hd

theorem encode_of_decodeFamily8 {iw : Word} {i : Instr} (hop : fieldOp iw = 0x8#4)
    (hd : decodeFamily8 iw = .ok i) : encode i = iw := by
  unfold decodeFamily8 at hd
  split at hd <;> cases hd
  all_goals exact formatRRN_of_fields hop (BitVec.eq_of_toNat_eq ‹_›)

theorem encode_of_decodeFamilyE {iw : Word} {i : Instr} (hop : fieldOp iw = 0xE#4)
    (hd : decodeFamilyE iw = .ok i) : encode i = iw := by
  unfold decodeFamilyE at hd
  split at hd <;> cases hd
  all_goals exact formatRI_of_fields hop (BitVec.eq_of_toNat_eq ‹_›)

theorem encode_of_decodeFamilyF {iw : Word} {i : Instr} (hop : fieldOp iw = 0xF#4)
    (hd : decodeFamilyF iw = .ok i) : encode i = iw := by
  unfold decodeFamilyF at hd
  split at hd <;> cases hd
  all_goals exact formatRI_of_fields hop (BitVec.eq_of_toNat_eq ‹_›)

/-- The family nibble that is none of 0 to E is F: the last arm of the first level (R95). -/
theorem fieldOp_eq_F {iw : Word} (h : 0xE < (fieldOp iw).toNat) : fieldOp iw = 0xF#4 := by
  have bound := (fieldOp iw).isLt
  exact BitVec.eq_of_toNat_eq (by simp only [BitVec.toNat_ofNat]; omega)

/-- A term keeps every bit of its word, the ignored ones too (log entry 11). -/
theorem encode_of_decodeWord {iw : Word} {i : Instr} (hd : decodeWord iw = .ok i) : encode i = iw := by
  unfold decodeWord at hd
  split at hd
  case h_1 => exact encode_of_decodeFamily0 hd
  case h_9 op => exact encode_of_decodeFamily8 (BitVec.eq_of_toNat_eq op) hd
  case h_15 op => exact encode_of_decodeFamilyE (BitVec.eq_of_toNat_eq op) hd
  case h_16 =>
    simp only [imp_false] at *
    exact encode_of_decodeFamilyF (fieldOp_eq_F (by omega)) hd
  case h_2 op | h_3 op | h_11 op | h_12 op =>
    cases hd
    exact formatA_of_fieldOp (BitVec.eq_of_toNat_eq op)
  case h_4 op | h_5 op | h_7 op | h_8 op | h_13 op =>
    cases hd
    exact formatRI_of_fieldOp (BitVec.eq_of_toNat_eq op)
  case h_6 op | h_10 op | h_14 op =>
    cases hd
    exact formatRRN_of_fieldOp (BitVec.eq_of_toNat_eq op)

/-- Settles O16, by `encode_of_decodeWord`. -/
theorem encodeOfDecodeIsIdentity : Obligations.EncodeOfDecodeIsIdentity :=
  fun _ _ => encode_of_decodeWord

/-! ## A word selects a row exactly when it is the word of an instruction of that row -/

/-- The word of an instruction selects its row, from the per-instruction laws (R100). -/
theorem row_selects_encode (i : Instr) : i.row.selects (encode i) = true := by
  cases i
  case cls => exact Laws.Encoding.cls.1
  case ret => exact Laws.Encoding.ret.1
  case jp => exact (Laws.Encoding.jp _).1
  case call => exact (Laws.Encoding.call _).1
  case seImm => exact (Laws.Encoding.seImm _ _).1
  case sneImm => exact (Laws.Encoding.sneImm _ _).1
  case seReg => exact (Laws.Encoding.seReg _ _ _).1
  case ldImm => exact (Laws.Encoding.ldImm _ _).1
  case addImm => exact (Laws.Encoding.addImm _ _).1
  case ldReg => exact (Laws.Encoding.ldReg _ _).1
  case orReg => exact (Laws.Encoding.orReg _ _).1
  case andReg => exact (Laws.Encoding.andReg _ _).1
  case xorReg => exact (Laws.Encoding.xorReg _ _).1
  case addReg => exact (Laws.Encoding.addReg _ _).1
  case subReg => exact (Laws.Encoding.subReg _ _).1
  case shr => exact (Laws.Encoding.shr _ _).1
  case subnReg => exact (Laws.Encoding.subnReg _ _).1
  case shl => exact (Laws.Encoding.shl _ _).1
  case sneReg => exact (Laws.Encoding.sneReg _ _ _).1
  case ldI => exact (Laws.Encoding.ldI _).1
  case jpV0 => exact (Laws.Encoding.jpV0 _).1
  case rnd => exact (Laws.Encoding.rnd _ _).1
  case drw => exact (Laws.Encoding.drw _ _ _).1
  case skp => exact (Laws.Encoding.skp _).1
  case sknp => exact (Laws.Encoding.sknp _).1
  case ldFromDt => exact (Laws.Encoding.ldFromDt _).1
  case waitKey => exact (Laws.Encoding.waitKey _).1
  case ldToDt => exact (Laws.Encoding.ldToDt _).1
  case ldToSt => exact (Laws.Encoding.ldToSt _).1
  case addI => exact (Laws.Encoding.addI _).1
  case ldGlyph => exact (Laws.Encoding.ldGlyph _).1
  case storeBcd => exact (Laws.Encoding.storeBcd _).1
  case storeRegs => exact (Laws.Encoding.storeRegs _).1
  case loadRegs => exact (Laws.Encoding.loadRegs _).1

theorem Row.mask_eq_of_selects {r : Row} {iw : Word} (h : r.selects iw = true) :
    iw &&& r.mask = r.bits := by
  simpa [Row.selects] using h

/-- The mask 0xF000 compares the family nibble (R93, R100). -/
theorem fieldOp_of_mask {iw : Word} {op : Nibble} (h : iw &&& 0xF000#16 = formatA op 0#12) :
    fieldOp iw = op := by
  rw [← formatA_fields iw, Laws.Encoding.mask_formatA] at h
  simpa using congrArg fieldOp h

/-- The mask 0xF00F compares the family nibble and the low nibble. -/
theorem fields_of_mask_formatRRN {iw : Word} {op n : Nibble}
    (h : iw &&& 0xF00F#16 = formatRRN op 0#4 0#4 n) : fieldOp iw = op ∧ fieldN iw = n := by
  rw [← formatRRN_fields iw, Laws.Encoding.mask_formatRRN] at h
  exact ⟨by simpa using congrArg fieldOp h, by simpa using congrArg fieldN h⟩

/-- The mask 0xF0FF compares the family nibble and the low byte. -/
theorem fields_of_mask_formatRI {iw : Word} {op : Nibble} {kk : Byte}
    (h : iw &&& 0xF0FF#16 = formatRI op 0#4 kk) : fieldOp iw = op ∧ fieldKk iw = kk := by
  rw [← formatRI_fields iw, Laws.Encoding.mask_formatRI] at h
  exact ⟨by simpa using congrArg fieldOp h, by simpa using congrArg fieldKk h⟩

/-- A word that matches a row's bits is a word of the row's format with the word's own fields. -/
theorem formatA_of_mask {iw : Word} {op : Nibble} (h : iw &&& 0xF000#16 = formatA op 0#12) :
    formatA op (fieldNnn iw) = iw :=
  formatA_of_fieldOp (fieldOp_of_mask h)

theorem formatRI_of_mask_op {iw : Word} {op : Nibble} (h : iw &&& 0xF000#16 = formatA op 0#12) :
    formatRI op (fieldX iw) (fieldKk iw) = iw :=
  formatRI_of_fieldOp (fieldOp_of_mask h)

theorem formatRRN_of_mask_op {iw : Word} {op : Nibble} (h : iw &&& 0xF000#16 = formatA op 0#12) :
    formatRRN op (fieldX iw) (fieldY iw) (fieldN iw) = iw :=
  formatRRN_of_fieldOp (fieldOp_of_mask h)

theorem formatRRN_of_mask {iw : Word} {op n : Nibble}
    (h : iw &&& 0xF00F#16 = formatRRN op 0#4 0#4 n) :
    formatRRN op (fieldX iw) (fieldY iw) n = iw :=
  formatRRN_of_fields (fields_of_mask_formatRRN h).1 (fields_of_mask_formatRRN h).2

theorem formatRI_of_mask {iw : Word} {op : Nibble} {kk : Byte}
    (h : iw &&& 0xF0FF#16 = formatRI op 0#4 kk) : formatRI op (fieldX iw) kk = iw :=
  formatRI_of_fields (fields_of_mask_formatRI h).1 (fields_of_mask_formatRI h).2

/-- A word that selects a row is the word of an instruction of that row: the fields are the word's own (R100). -/
theorem exists_encode_of_selects {iw : Word} {i : Instr} (h : i.row.selects iw = true) :
    ∃ j, j.row = i.row ∧ encode j = iw := by
  have hm := Row.mask_eq_of_selects h
  cases i
  case cls => exact ⟨.cls, rfl, (hm.symm.trans BitVec.and_allOnes : 0x00E0#16 = iw)⟩
  case ret => exact ⟨.ret, rfl, (hm.symm.trans BitVec.and_allOnes : 0x00EE#16 = iw)⟩
  case jp => exact ⟨.jp (fieldNnn iw), rfl, formatA_of_mask hm⟩
  case call => exact ⟨.call (fieldNnn iw), rfl, formatA_of_mask hm⟩
  case ldI => exact ⟨.ldI (fieldNnn iw), rfl, formatA_of_mask hm⟩
  case jpV0 => exact ⟨.jpV0 (fieldNnn iw), rfl, formatA_of_mask hm⟩
  case seImm => exact ⟨.seImm (fieldX iw) (fieldKk iw), rfl, formatRI_of_mask_op hm⟩
  case sneImm => exact ⟨.sneImm (fieldX iw) (fieldKk iw), rfl, formatRI_of_mask_op hm⟩
  case ldImm => exact ⟨.ldImm (fieldX iw) (fieldKk iw), rfl, formatRI_of_mask_op hm⟩
  case addImm => exact ⟨.addImm (fieldX iw) (fieldKk iw), rfl, formatRI_of_mask_op hm⟩
  case rnd => exact ⟨.rnd (fieldX iw) (fieldKk iw), rfl, formatRI_of_mask_op hm⟩
  case seReg => exact ⟨.seReg (fieldX iw) (fieldY iw) (fieldN iw), rfl, formatRRN_of_mask_op hm⟩
  case sneReg => exact ⟨.sneReg (fieldX iw) (fieldY iw) (fieldN iw), rfl, formatRRN_of_mask_op hm⟩
  case drw => exact ⟨.drw (fieldX iw) (fieldY iw) (fieldN iw), rfl, formatRRN_of_mask_op hm⟩
  case ldReg => exact ⟨.ldReg (fieldX iw) (fieldY iw), rfl, formatRRN_of_mask hm⟩
  case orReg => exact ⟨.orReg (fieldX iw) (fieldY iw), rfl, formatRRN_of_mask hm⟩
  case andReg => exact ⟨.andReg (fieldX iw) (fieldY iw), rfl, formatRRN_of_mask hm⟩
  case xorReg => exact ⟨.xorReg (fieldX iw) (fieldY iw), rfl, formatRRN_of_mask hm⟩
  case addReg => exact ⟨.addReg (fieldX iw) (fieldY iw), rfl, formatRRN_of_mask hm⟩
  case subReg => exact ⟨.subReg (fieldX iw) (fieldY iw), rfl, formatRRN_of_mask hm⟩
  case shr => exact ⟨.shr (fieldX iw) (fieldY iw), rfl, formatRRN_of_mask hm⟩
  case subnReg => exact ⟨.subnReg (fieldX iw) (fieldY iw), rfl, formatRRN_of_mask hm⟩
  case shl => exact ⟨.shl (fieldX iw) (fieldY iw), rfl, formatRRN_of_mask hm⟩
  case skp => exact ⟨.skp (fieldX iw), rfl, formatRI_of_mask hm⟩
  case sknp => exact ⟨.sknp (fieldX iw), rfl, formatRI_of_mask hm⟩
  case ldFromDt => exact ⟨.ldFromDt (fieldX iw), rfl, formatRI_of_mask hm⟩
  case waitKey => exact ⟨.waitKey (fieldX iw), rfl, formatRI_of_mask hm⟩
  case ldToDt => exact ⟨.ldToDt (fieldX iw), rfl, formatRI_of_mask hm⟩
  case ldToSt => exact ⟨.ldToSt (fieldX iw), rfl, formatRI_of_mask hm⟩
  case addI => exact ⟨.addI (fieldX iw), rfl, formatRI_of_mask hm⟩
  case ldGlyph => exact ⟨.ldGlyph (fieldX iw), rfl, formatRI_of_mask hm⟩
  case storeBcd => exact ⟨.storeBcd (fieldX iw), rfl, formatRI_of_mask hm⟩
  case storeRegs => exact ⟨.storeRegs (fieldX iw), rfl, formatRI_of_mask hm⟩
  case loadRegs => exact ⟨.loadRegs (fieldX iw), rfl, formatRI_of_mask hm⟩

/-- Settles O17: decoding inverts encoding, so both directions are about the words of instructions. -/
theorem opcodeMapSelectsOneRow : Obligations.OpcodeMapSelectsOneRow := by
  refine ⟨fun iw i hd => ?decoded, fun iw i hs => ?selected⟩
  case decoded => rw [← encode_of_decodeWord hd]; exact row_selects_encode i
  case selected =>
    obtain ⟨j, same, rfl⟩ := exists_encode_of_selects hs
    exact ⟨j, decodeWord_encode j, same⟩

/-! ## The UNKNOWN words, family by family -/

theorem decodeFamily0_rejects_iff (iw : Word) :
    (∃ e, decodeFamily0 iw = .error e) ↔ iw ≠ 0x00E0#16 ∧ iw ≠ 0x00EE#16 := by
  unfold decodeFamily0
  split
  · simp_all
  · split <;> simp_all

/-- A second level looks at its selector alone, so the rejected selectors are found by running through its
arms (R98). -/
theorem decodeFamily8_rejects_iff (iw : Word) : (∃ e, decodeFamily8 iw = .error e) ↔
    fieldN iw ∈ [0x8#4, 0x9#4, 0xA#4, 0xB#4, 0xC#4, 0xD#4, 0xF#4] := by
  have bound := (fieldN iw).isLt
  simp only [List.mem_cons, List.not_mem_nil, or_false, ← BitVec.toNat_inj, BitVec.toNat_ofNat]
  unfold decodeFamily8
  split
  case h_10 => simp only [Except.error.injEq, exists_eq', true_iff, imp_false] at *; omega
  all_goals simp only [reduceCtorEq, exists_false, false_iff]; omega

theorem decodeFamilyE_rejects_iff (iw : Word) :
    (∃ e, decodeFamilyE iw = .error e) ↔ fieldKk iw ∉ [0x9E#8, 0xA1#8] := by
  simp only [List.mem_cons, List.not_mem_nil, or_false, ← BitVec.toNat_inj, BitVec.toNat_ofNat]
  unfold decodeFamilyE
  split
  case h_3 => simp only [Except.error.injEq, exists_eq', true_iff, imp_false] at *; omega
  all_goals simp only [reduceCtorEq, exists_false, false_iff]; omega

theorem decodeFamilyF_rejects_iff (iw : Word) : (∃ e, decodeFamilyF iw = .error e) ↔
    fieldKk iw ∉
      [0x07#8, 0x0A#8, 0x15#8, 0x18#8, 0x1E#8, 0x29#8, 0x33#8, 0x55#8, 0x65#8] := by
  simp only [List.mem_cons, List.not_mem_nil, or_false, ← BitVec.toNat_inj, BitVec.toNat_ofNat]
  unfold decodeFamilyF
  split
  case h_10 => simp only [Except.error.injEq, exists_eq', true_iff, imp_false] at *; omega
  all_goals simp only [reduceCtorEq, exists_false, false_iff]; omega

/-- Settles O18: the families without a second level reject nothing (R95), the others what their second level
rejects. -/
theorem unknownWordsAreTheListed : Obligations.UnknownWordsAreTheListed := by
  intro iw
  rw [← decodeFamily0_rejects_iff, ← decodeFamily8_rejects_iff, ← decodeFamilyE_rejects_iff,
    ← decodeFamilyF_rejects_iff]
  simp only [← BitVec.toNat_inj, BitVec.toNat_ofNat]
  have bound := (fieldOp iw).isLt
  unfold decodeWord
  split
  case h_16 =>
    simp only [imp_false] at *
    have op : (fieldOp iw).toNat = 15 := by omega
    simp [op]
  all_goals
    rename_i op
    simp [op]

end Sys2Proof
end

section
/-! The machine cycle as a total function (40_cycle.md R120): the state a cycle leaves before its end, its
three cases, and the principle by which a fact about every instruction becomes a fact about every cycle; then
the cycle's own statements O6 to O8. -/

namespace Sys2Proof.Machine

/-! ## The state before the end of the cycle -/

/-- What a cycle leaves before the timers tick (R120): the failed fetch, the reported UNKNOWN word, or what the
decoded instruction leaves of the pre-advanced state. -/
def State.beforeTick (s : State) : State :=
  match s.fetchWord with
  | none => s.fetchFailed
  | some iw =>
    match decodeWord iw with
    | .error _ => s.unknownWord iw
    | .ok i => after i (s.preAdvance iw)

theorem State.beforeTick_of_no_fetch {s : State} (hf : s.fetchWord = none) :
    s.beforeTick = s.fetchFailed := by
  simp only [State.beforeTick, hf]

theorem State.beforeTick_of_unknown {s : State} {iw : Word} {e : Reject}
    (hf : s.fetchWord = some iw) (hd : decodeWord iw = .error e) :
    s.beforeTick = s.unknownWord iw := by
  simp only [State.beforeTick, hf, hd]

theorem State.beforeTick_of_decoded {s : State} {iw : Word} {i : Instr}
    (hf : s.fetchWord = some iw) (hd : decodeWord iw = .ok i) :
    s.beforeTick = after i (s.preAdvance iw) := by
  simp only [State.beforeTick, hf, hd]

/-- Every cycle answers a next state: `beforeTick` and the end of the cycle (R120, R130). -/
theorem step_eq (s : State) : step s = .next s.beforeTick.finishCycle := by
  obtain ⟨hf, hs⟩ | ⟨iw, e, hf, hd, hs⟩ | ⟨iw, i, hf, hd, hs⟩ := step_cases s
  · rw [hs, State.beforeTick_of_no_fetch hf]
  · rw [hs, State.beforeTick_of_unknown hf hd]
  · rw [hs, State.beforeTick_of_decoded hf hd]

theorem eq_of_step_eq_next {s t : State} (h : step s = .next t) : t = s.beforeTick.finishCycle := by
  rw [step_eq] at h
  cases h
  rfl

/-- A property of the state before the tick: it holds when it holds of a pre-advanced state that only reports
(R121, R126) and of what every instruction the cycle executes leaves. -/
theorem State.beforeTick_induction {s : State} {P : State → Prop}
    (reported : ∀ iw c a, P ((s.preAdvance iw).raise c a))
    (executed : ∀ iw i, Executes s i → P (after i (s.preAdvance iw))) : P s.beforeTick := by
  unfold State.beforeTick
  split
  · exact reported 0#16 .outOfBounds 0x1000
  · next iw hf =>
    split
    · exact reported iw .unknownOpcode 0
    · next i hd => exact executed iw i ⟨iw, hf, hd⟩

/-! ## Fetch -/

/-- A fetch succeeds exactly when both its bytes are inside the address space, and reads those two (R121). -/
theorem State.fetchWord_of_le {s : State} (h : s.pc.toNat + 1 ≤ 0xFFF) :
    s.fetchWord = some (wordOfBytes (s.memRead s.pc.toNat) (s.memRead (s.pc.toNat + 1))) :=
  if_neg (by omega)

theorem State.fetchWord_of_lt {s : State} (h : 0xFFF < s.pc.toNat + 1) : s.fetchWord = none :=
  if_pos h

/-! ## The tick -/

/-- The tick reads the divider, the timers and the ratio alone (R128). -/
theorem State.timerTick_congr {s t : State} (tdiv : t.tdiv = s.tdiv) (dt : t.dt = s.dt)
    (st : t.st = s.st) (cfg : t.cfg = s.cfg) : t.timerTick.tdiv = s.timerTick.tdiv ∧
      t.timerTick.dt = s.timerTick.dt ∧ t.timerTick.st = s.timerTick.st := by
  refine ⟨?_, ?_, ?_⟩
  · rw [State.timerTick_tdiv, State.timerTick_tdiv, tdiv, cfg]
  · rw [State.timerTick_dt, State.timerTick_dt, tdiv, dt, cfg]
  · rw [State.timerTick_st, State.timerTick_st, tdiv, st, cfg]

/-! ## The statements about the cycle itself -/

/-- Settles O6: the three cases of `beforeTick`, each with the end of the cycle. -/
theorem cycleRunsDecodedInstruction : Obligations.CycleRunsDecodedInstruction := by
  intro s
  refine ⟨⟨_, step_eq s⟩, fun high => ?fetchFails, fun iw low word => ?fetched⟩
  case fetchFails =>
    rw [step_eq, State.beforeTick_of_no_fetch (State.fetchWord_of_lt high), State.fetchFailed_eq]
  case fetched =>
    have hf : s.fetchWord = some iw := by rw [word, State.fetchWord_of_le low]
    refine ⟨fun e hd => ?unknown, fun i hd => ?decoded⟩
    case unknown => rw [step_eq, State.beforeTick_of_unknown hf hd, State.unknownWord_eq]
    case decoded => rw [step_eq, State.beforeTick_of_decoded hf hd, exec_eq]; rfl

/-- Settles O7: what `unknownWord` leaves, at the end of the cycle. -/
theorem unknownWordIsReportedNoOp : Obligations.UnknownWordIsReportedNoOp := by
  intro s iw e hf hd
  obtain ⟨tdiv, dt, st⟩ :=
    State.timerTick_congr (s := s) (t := s.unknownWord iw) rfl rfl rfl rfl
  refine ⟨(s.unknownWord iw).finishCycle, ?step, ?pc, ?err, ?report, tdiv, dt, st, ?memory, ?rest⟩
  case step => rw [step_eq, State.beforeTick_of_unknown hf hd]
  case pc => rw [State.finishCycle_pc]; rfl
  case err => rw [State.finishCycle_err]; rfl
  case report => rw [State.finishCycle_report]; rfl
  case memory => exact SameMemory.of_eq (State.finishCycle_mem _) (State.finishCycle_cfg _)
  case rest => rw [State.finishCycle_eq]; rfl

/-- Settles O8: PC + 1 = 0x1000 is above 0xFFF, and PC + 2 wraps to 0x001. -/
theorem fetchAtTopReportsAndGoesOn : Obligations.FetchAtTopReportsAndGoesOn := by
  intro s top
  have hf : s.fetchWord = none := State.fetchWord_of_lt (by rw [top]; decide)
  obtain ⟨-, dt, st⟩ := State.timerTick_congr (s := s) (t := s.fetchFailed) rfl rfl rfl rfl
  refine ⟨s.fetchFailed.finishCycle, ?step, ?pc, ?err, ?report, dt, st, ?rest⟩
  case step => rw [step_eq, State.beforeTick_of_no_fetch hf]
  case pc => rw [State.finishCycle_pc, State.fetchFailed_eq, top]; rfl
  case err => rw [State.finishCycle_err]; rfl
  case report => rw [State.finishCycle_report, State.fetchFailed_eq, top]
  case rest => rw [State.finishCycle_eq]; rfl

/-- A word stored at PC, high byte first, is the word fetched there (R65, R121). -/
theorem State.fetchWord_memWriteBytes {s : State} (wf : Memory.wf s.cfg.font s.mem = true)
    (low : s.pc.toNat + 1 ≤ 0xFFF) (iw : Word) :
    (s.memWriteBytes s.pc.toNat (bytesOfWord iw)).fetchWord = some iw := by
  have two : (bytesOfWord iw).length = 2 := rfl
  have hi : (s.memWriteBytes s.pc.toNat (bytesOfWord iw)).memRead s.pc.toNat =
      iw.extractLsb' 8 8 := by
    rw [State.memRead_memWriteBytes wf (by omega), dif_pos (by omega)]
    simp [bytesOfWord]
  have lo : (s.memWriteBytes s.pc.toNat (bytesOfWord iw)).memRead (s.pc.toNat + 1) =
      iw.extractLsb' 0 8 := by
    rw [State.memRead_memWriteBytes wf (by omega), dif_pos (by omega)]
    simp [bytesOfWord]
  refine (State.fetchWord_of_le (s := s.memWriteBytes _ _) low).trans ?_
  rw [State.memWriteBytes_pc, hi, lo, wordOfBytes_bytesOfWord]

/-- The placing avoids 0xFFF, where no word can stand (R294). -/
theorem State.fetchWord_placeWord {s : State} (wf : Memory.wf s.cfg.font s.mem = true) (iw : Word) :
    (s.placeWord iw).fetchWord = some iw := by
  unfold State.placeWord
  split
  · exact State.fetchWord_memWriteBytes (s := s.setPc 0x200#12) wf (Nat.le_of_ble_eq_true rfl) iw
  · next h =>
    have bound := s.pc.isLt
    have low : s.pc.toNat ≠ 0xFFF := fun top => h (BitVec.eq_of_toNat_eq top)
    exact State.fetchWord_memWriteBytes wf (by omega) iw

/-- Settles O20, by `State.fetchWord_placeWord`: the reduction to 16 bits changes no word. -/
theorem placedWordIsFetched : Obligations.PlacedWordIsFetched := by
  intro s w wf small
  rw [State.withFetchWord, Nat.mod_eq_of_lt (show w < 2 ^ 16 from small),
    State.fetchWord_placeWord wf]

end Sys2Proof.Machine
end

section
/-! Call and return, the conditional skips and the wait for a key, branch by branch (41_flow.md R140 and R142,
42_skip.md, 46_keypad_timers.md R210 to R212): O22 to O26, O43 and O44. -/

namespace Sys2Proof.Machine

/-! ## Call and return -/

theorem State.stackFull_iff {s : State} :
    s.stackFull = true ↔ s.cfg.stackDepth = some s.stack.length := by
  simp [State.stackFull]

theorem after_call_of_full {s : State} (full : s.cfg.stackDepth = some s.stack.length)
    (nnn : Addr) : after (.call nnn) s = s.raise .stackOverflow 0 :=
  if_pos (State.stackFull_iff.mpr full)

theorem after_call_of_not_full {s : State} (room : s.cfg.stackDepth ≠ some s.stack.length)
    (nnn : Addr) : after (.call nnn) s = (s.push s.pc).setPc nnn :=
  if_neg (mt State.stackFull_iff.mp room)

theorem after_ret_of_nil {s : State} (empty : s.stack = []) :
    after .ret s = s.raise .stackUnderflow 0 := by
  simp only [after, State.top_eq_none.mpr empty]

theorem after_ret_of_append {s : State} {l : List Addr} {a : Addr} (h : s.stack = l ++ [a]) :
    after .ret s = (s.setStack l).setPc a := by
  have top : s.top = some a := by rw [State.top, h, List.getLast?_concat]
  simp only [after, top, State.dropTop, h, List.dropLast_concat]

/-- Settles O22, by the two branches of 2NNN. -/
theorem callPushesOrReports : Obligations.CallPushesOrReports := by
  intro nnn s
  refine ⟨decodeWord_encode (.call nnn), _, exec_eq _ s, ?_⟩
  split
  · next full =>
    rw [after_call_of_full full]
    exact ⟨fun _ => rfl, rfl⟩
  · next room =>
    rw [after_call_of_not_full room]
    exact ⟨fun _ => rfl, rfl⟩

/-- Settles O23, by the two branches of 00EE. -/
theorem returnPopsOrReports : Obligations.ReturnPopsOrReports := by
  refine ⟨decodeWord_encode .ret, fun s => ⟨fun l a h => ?pops, fun empty => ?reports⟩⟩
  case pops => exact ⟨_, exec_eq .ret s, by rw [after_ret_of_append h]; exact ⟨fun _ => rfl, rfl⟩⟩
  case reports => exact ⟨_, exec_eq .ret s, by rw [after_ret_of_nil empty]; exact ⟨fun _ => rfl, rfl⟩⟩

/-- Settles O24: the call leaves the pre-advanced PC on top of the old stack, and the return takes both apart. -/
theorem callThenReturnComesBack : Obligations.CallThenReturnComesBack := by
  intro nnn s u room
  refine ⟨_, exec_eq _ s, fun same => ?_⟩
  rw [after_call_of_not_full room] at same
  refine ⟨_, exec_eq .ret u, ?_⟩
  rw [after_ret_of_append (l := s.stack) (a := s.pc) same]
  exact ⟨rfl, rfl⟩

/-! ## Skips -/

theorem toNat_addr_add_two (a : Addr) : (a + 2).toNat = (a.toNat + 2) % 4096 := BitVec.toNat_add a 2

/-- An instruction that skips on a condition completes, moves PC by 2 modulo 4096 exactly when the condition
holds, and changes nothing else (R154). -/
theorem exec_of_after_eq_skipIf {i : Instr} {s : State} {c : Bool} (h : after i s = s.skipIf c) :
    ∃ t, exec i s = .next t ∧ OnlyPc s t ∧
      t.pc.toNat = if c = true then (s.pc.toNat + 2) % 4096 else s.pc.toNat := by
  refine ⟨s.skipIf c, by rw [exec_eq, h], OnlyPc.skipIf s c, ?pc⟩
  case pc => rw [State.skipIf_pc, apply_ite BitVec.toNat, toNat_addr_add_two]

/-- The same stated by a proposition that the condition decides, in either sense. -/
theorem exec_skip_iff {i : Instr} {s : State} {c : Bool} {p : Prop} [Decidable p]
    (h : after i s = s.skipIf c) (hc : c = true ↔ p) :
    ∃ t, exec i s = .next t ∧ OnlyPc s t ∧
      t.pc.toNat = if p then (s.pc.toNat + 2) % 4096 else s.pc.toNat := by
  obtain ⟨t, completes, frame, pc⟩ := exec_of_after_eq_skipIf h
  exact ⟨t, completes, frame, by rw [pc]; exact if_congr hc rfl rfl⟩

theorem exec_skip_iff_not {i : Instr} {s : State} {c : Bool} {p : Prop} [Decidable p]
    (h : after i s = s.skipIf c) (hc : c = true ↔ ¬ p) :
    ∃ t, exec i s = .next t ∧ OnlyPc s t ∧
      t.pc.toNat = if p then s.pc.toNat else (s.pc.toNat + 2) % 4096 := by
  obtain ⟨t, completes, frame, pc⟩ := exec_skip_iff h hc
  exact ⟨t, completes, frame, by rw [pc, ite_not]⟩

/-- Settles O25. -/
theorem skipsOnImmediate : Obligations.SkipsOnImmediate := by
  intro x kk s
  exact ⟨decodeWord_encode (.seImm x kk), decodeWord_encode (.sneImm x kk),
    exec_skip_iff rfl beq_iff_eq, exec_skip_iff_not rfl bne_iff_ne⟩

/-- Settles O26: the low nibble is an argument of neither meaning. -/
theorem skipsOnRegisters : Obligations.SkipsOnRegisters := by
  intro x y n s
  exact ⟨decodeWord_encode (.seReg x y n), decodeWord_encode (.sneReg x y n),
    exec_skip_iff rfl beq_iff_eq, exec_skip_iff_not rfl bne_iff_ne⟩

/-! ## The keypad -/

/-- The key that EX9E and EXA1 test is numbered by the low four bits of Vx (R210). -/
theorem toNat_keyIndex (a : Byte) : (keyIndex a).toNat = a.toNat % 16 := by
  have masked : (a &&& 0x0F#8).toNat = a.toNat % 16 := Nat.and_two_pow_sub_one_eq_mod a.toNat 4
  rw [keyIndex, BitVec.toNat_setWidth, masked, Nat.mod_mod]

/-- Settles O43. -/
theorem keySkips : Obligations.KeySkips := by
  intro x s
  refine ⟨decodeWord_encode (.skp x), decodeWord_encode (.sknp x), fun k hk => ?_⟩
  have index : keyIndex (s.reg x) = k := BitVec.eq_of_toNat_eq ((toNat_keyIndex _).trans hk.symm)
  subst index
  exact ⟨exec_of_after_eq_skipIf rfl, exec_skip_iff_not rfl (by simp)⟩

theorem after_waitKey_of_up {s : State} (up : ∀ k, s.keyDown k = false) (x : Nibble) :
    after (.waitKey x) s = s.setPc (s.pc - 2) := by
  simp only [after, firstKeyDown_eq_none.mpr up]

theorem after_waitKey_of_down {s : State} {k : Nibble} (down : s.keyDown k = true)
    (least : ∀ j : Nibble, j.toNat < k.toNat → s.keyDown j = false) (x : Nibble) :
    after (.waitKey x) s = s.setReg x (BitVec.ofNat 8 k.toNat) := by
  simp only [after, firstKeyDown_eq_some down least]

/-- Settles O44, by the two branches of FX0A. -/
theorem waitForKeyPollsOrLoads : Obligations.WaitForKeyPollsOrLoads := by
  intro x s
  refine ⟨decodeWord_encode (.waitKey x), fun up => ?polls, fun k down least => ?loads⟩
  case polls =>
    refine ⟨s.setPc (s.pc - 2), by rw [exec_eq, after_waitKey_of_up up], ?_, OnlyPc.setPc s _⟩
    rw [State.setPc_pc, BitVec.sub_add_cancel]
  case loads =>
    obtain ⟨t, completes, value, frame⟩ :=
      exec_of_after_eq_setReg (after_waitKey_of_down down least x)
    have small := k.isLt
    refine ⟨t, completes, ?_, frame⟩
    rw [value, BitVec.toNat_ofNat, Nat.mod_eq_of_lt (by omega)]

end Sys2Proof.Machine
end

section
/-! Addition, subtraction, shifts and the random byte (43_alu.md R167 to R172): the two orders of writing a result
and a flag, the values as numbers, and O30 to O33. -/

namespace Sys2Proof.Machine

/-! ## A result and a flag -/

/-- Both orders write Vx and VF and nothing else (R125). -/
theorem OnlyRegs.flagThenResult (s : State) (x : Nibble) (b : Byte) (f : Bool) :
    OnlyRegs [x, vF] s (s.flagThenResult x b f) where
  regs z hz := by
    simp only [List.mem_cons, List.not_mem_nil, or_false, not_or] at hz
    rw [State.reg_flagThenResult, if_neg hz.1, if_neg hz.2]
  memory _ := rfl
  rest := rfl

theorem OnlyRegs.resultThenFlag (s : State) (x : Nibble) (b : Byte) (f : Bool) :
    OnlyRegs [x, vF] s (s.resultThenFlag x b f) where
  regs z hz := by
    simp only [List.mem_cons, List.not_mem_nil, or_false, not_or] at hz
    rw [State.reg_resultThenFlag, if_neg hz.2, if_neg hz.1]
  memory _ := rfl
  rest := rfl

/-- An instruction that writes the flag and then the result completes with the result in Vx, whichever register
it is, and the flag in VF when Vx is another register. -/
theorem exec_of_after_eq_flagThenResult {i : Instr} {s : State} {x : Nibble} {b : Byte} {f : Bool}
    (h : after i s = s.flagThenResult x b f) :
    ∃ t, exec i s = .next t ∧ OnlyRegs [x, vF] s t ∧ t.reg x = b ∧
      (x ≠ vF → t.reg vF = flagByte f) := by
  refine ⟨s.flagThenResult x b f, by rw [exec_eq, h], OnlyRegs.flagThenResult s x b f, ?result,
    fun other => ?flag⟩
  case result => rw [State.reg_flagThenResult, if_pos rfl]
  case flag => rw [State.reg_flagThenResult, if_neg other.symm, if_pos rfl]

theorem toNat_flagByte_decide (p : Prop) [Decidable p] :
    (flagByte (decide p)).toNat = if p then 1 else 0 := by
  rw [toNat_flagByte]
  simp only [decide_eq_true_eq]

/-- Settles O30: the sum is written first and the carry last, both from the old operands. -/
theorem addSetsCarryLast : Obligations.AddSetsCarryLast := by
  intro x y s
  refine ⟨decodeWord_encode (.addReg x y), _, exec_eq _ s, OnlyRegs.resultThenFlag s x _ _,
    fun other => ?sum, ?carry⟩
  case sum => rw [after, State.reg_resultThenFlag, if_neg other, if_pos rfl, BitVec.toNat_add]
  case carry => rw [after, State.reg_resultThenFlag, if_pos rfl, carryOut, toNat_flagByte_decide]

/-! ## Subtraction -/

/-- The difference of two bytes is the integer difference modulo 256 (R160). -/
theorem toNat_sub_eq_emod (a b : Byte) : ((a - b).toNat : Int) = (a.toNat - b.toNat : Int) % 256 := by
  have := a.isLt
  have := b.isLt
  rw [BitVec.toNat_sub]
  omega

/-- An instruction that writes the strict no-borrow flag of a and b and then their difference (R168, R170). -/
theorem exec_of_after_eq_subtract {i : Instr} {s : State} {x : Nibble} {a b : Byte}
    (h : after i s = s.flagThenResult x (a - b) (noBorrow a b)) :
    ∃ t, exec i s = .next t ∧ OnlyRegs [x, vF] s t ∧
      ((t.reg x).toNat : Int) = (a.toNat - b.toNat : Int) % 256 ∧
      (x ≠ vF → (t.reg vF).toNat = if b.toNat < a.toNat then 1 else 0) := by
  obtain ⟨t, completes, frame, result, flag⟩ := exec_of_after_eq_flagThenResult h
  refine ⟨t, completes, frame, by rw [result, toNat_sub_eq_emod], fun other => ?_⟩
  rw [flag other, noBorrow, toNat_flagByte_decide]

/-- Settles O31: 8XY5 and 8XY7 are one subtraction, with the operands the other way round. -/
theorem subtractSetsNoBorrowFirst : Obligations.SubtractSetsNoBorrowFirst := by
  intro x y s
  exact ⟨decodeWord_encode (.subReg x y), decodeWord_encode (.subnReg x y),
    exec_of_after_eq_subtract rfl, exec_of_after_eq_subtract rfl⟩

/-! ## Shifts -/

theorem toNat_shiftRight_one (a : Byte) : (a >>> 1).toNat = a.toNat / 2 := by
  rw [BitVec.toNat_ushiftRight, Nat.shiftRight_eq_div_pow, pow_one]

theorem toNat_shiftLeft_one (a : Byte) : (a <<< 1).toNat = a.toNat * 2 % 256 := by
  rw [BitVec.toNat_shiftLeft, Nat.shiftLeft_eq, pow_one]

/-- The bit shifted out to the right is the remainder of the halving (R169). -/
theorem toNat_flagByte_shiftedOutRight (a : Byte) :
    (flagByte (shiftedOutRight a)).toNat = a.toNat % 2 := by
  have bit : shiftedOutRight a = decide (a.toNat % 2 = 1) := by
    rw [shiftedOutRight, BitVec.getLsbD, Nat.testBit_zero]
  rw [bit, toNat_flagByte_decide]
  split <;> omega

/-- The bit shifted out to the left is the top bit (R171). -/
theorem toNat_flagByte_shiftedOutLeft (a : Byte) :
    (flagByte (shiftedOutLeft a)).toNat = a.toNat / 128 := by
  have bound := a.isLt
  have bit : shiftedOutLeft a = decide (a.toNat / 128 % 2 = 1) := by
    rw [shiftedOutLeft, BitVec.getLsbD, Nat.testBit_eq_decide_div_mod_eq]
  rw [bit, toNat_flagByte_decide]
  split <;> omega

/-- Settles O32: y is an argument of neither meaning. -/
theorem shiftsSetShiftedOutBitFirst : Obligations.ShiftsSetShiftedOutBitFirst := by
  intro x y s
  refine ⟨decodeWord_encode (.shr x y), decodeWord_encode (.shl x y), ?right, ?left⟩
  case right =>
    obtain ⟨t, completes, frame, result, flag⟩ :=
      exec_of_after_eq_flagThenResult (i := .shr x y) (s := s) rfl
    exact ⟨t, completes, frame, by rw [result, toNat_shiftRight_one],
      fun other => by rw [flag other, toNat_flagByte_shiftedOutRight]⟩
  case left =>
    obtain ⟨t, completes, frame, result, flag⟩ :=
      exec_of_after_eq_flagThenResult (i := .shl x y) (s := s) rfl
    exact ⟨t, completes, frame, by rw [result, toNat_shiftLeft_one],
      fun other => by rw [flag other, toNat_flagByte_shiftedOutLeft]⟩

/-! ## The random byte -/

/-- Masking leaves no bit that the mask lacks. -/
theorem and_and_not_mask (r kk : Byte) : r &&& kk &&& ~~~kk = 0#8 := by
  rw [BitVec.and_assoc, BitVec.and_not_self]
  exact BitVec.and_zero

/-- Settles O33: CXKK is a single register write of a masked byte, whatever the byte is (R172, log entry 4). -/
theorem randomIsMaskedByKk : Obligations.RandomIsMaskedByKk := by
  intro x kk s
  refine ⟨decodeWord_encode (.rnd x kk), fun r => ?value, ?completes⟩
  case value => rw [State.withRandom, State.reg_setReg, if_pos rfl]
  case completes =>
    have value : (after (.rnd x kk) s).reg x = Config.rndInput s.rndCount &&& kk := by
      rw [after, State.reg_setReg, if_pos rfl]
    refine ⟨_, exec_eq _ s, rfl, OnlyRegs.setReg s (List.mem_singleton_self x) _, ?masked, ?below⟩
    case masked => rw [value, and_and_not_mask]
    case below =>
      rw [value, BitVec.toNat_and]
      exact Nat.and_le_right

end Sys2Proof.Machine
end

section
/-! Memory transfer: FX33, FX55 and FX65 (44_index_memory.md R183 to R185), each a block inside the address space
or a report, and O36 to O39. -/

namespace Sys2Proof.Machine

/-- An instruction whose checked range is out of bounds completes and only reports OUT_OF_BOUNDS (R63, R254). -/
theorem exec_of_out_of_bounds {i : Instr} {s e : State} {h : Nat} (out : 0xFFF < h)
    (checked : after i s = s.ifInBounds h e) :
    ∃ t, exec i s = .next t ∧ SameMemory s t ∧
      t = { s with
        report := { s.report with code := .outOfBounds, addr := BitVec.ofNat 13 h }
        err := s.err ||| 0b0100#4 } := by
  refine ⟨s.raise .outOfBounds h, ?_, fun _ => rfl, rfl⟩
  rw [exec_eq, checked, State.ifInBounds_of_lt out]

/-- I moves past a block of x + 1 bytes, modulo 4096 (R184, R185). -/
theorem toNat_indexAfterBlock (i : Addr) (x : Nibble) :
    (indexAfterBlock i x).toNat = (i.toNat + x.toNat + 1) % 4096 := by
  have widened : (x.setWidth 12).toNat = x.toNat := BitVec.toNat_setWidth_of_le (by decide)
  rw [indexAfterBlock, BitVec.toNat_add, BitVec.toNat_add, widened]
  exact Nat.mod_add_mod _ _ _

/-! ## FX33 -/

theorem after_storeBcd_of_le {s : State} (low : s.i.toNat + 2 ≤ 0xFFF) (x : Nibble) :
    after (.storeBcd x) s =
      s.memWriteBytes (effectiveAddr s.i 0) (decimalDigits (s.reg x)) :=
  State.ifInBounds_of_le low

/-- The digits of a byte fit a byte each, so storing them reduces nothing (R183). -/
theorem toNat_decimalDigits (a : Byte) {k : Nat} (hk : k < 3) :
    ((decimalDigits a)[k]).toNat = a.toNat / 10 ^ (2 - k) % 10 := by
  have bound := a.isLt
  obtain rfl | rfl | rfl : k = 0 ∨ k = 1 ∨ k = 2 := by omega
  · simp only [decimalDigits, List.getElem_cons_zero, BitVec.toNat_ofNat]
    omega
  · simp only [decimalDigits, List.getElem_cons_succ, List.getElem_cons_zero, BitVec.toNat_ofNat]
    omega
  · simp only [decimalDigits, List.getElem_cons_succ, List.getElem_cons_zero, BitVec.toNat_ofNat]
    omega

/-- Settles O36: in bounds FX33 is one block store of three digits. -/
theorem storeDecimalDigitsAtIndex : Obligations.StoreDecimalDigitsAtIndex := by
  intro x s wf
  refine ⟨decodeWord_encode (.storeBcd x), fun low => ?stores, fun out => ?reports⟩
  case reports => exact exec_of_out_of_bounds out rfl
  case stores =>
    have bound := (s.reg x).isLt
    have read := State.memRead_memWriteBytes (a := effectiveAddr s.i 0)
      (bs := decimalDigits (s.reg x)) wf (by rw [length_decimalDigits]; unfold effectiveAddr; omega)
    have digit : ∀ k, k < 3 →
        ((s.memWriteBytes (effectiveAddr s.i 0) (decimalDigits (s.reg x))).memRead
          (effectiveAddr s.i k)).toNat = (s.reg x).toNat / 10 ^ (2 - k) % 10 := by
      intro k hk
      rw [read, dif_pos (by rw [length_decimalDigits]; unfold effectiveAddr; omega)]
      simp only [effectiveAddr, Nat.add_zero, Nat.add_sub_cancel_left]
      exact toNat_decimalDigits _ hk
    refine ⟨_, (exec_eq _ s).trans (by rw [after_storeBcd_of_le low]), ?hundreds, ?tens, ?ones,
      fun a outside => ?frame, rfl⟩
    case hundreds => rw [digit 0 (by omega)]; omega
    case tens => rw [digit 1 (by omega)]; omega
    case ones => rw [digit 2 (by omega)]; omega
    case frame =>
      unfold effectiveAddr at *
      rw [read, dif_neg (by rw [length_decimalDigits]; omega)]

/-! ## FX55 and FX65 -/

theorem after_storeRegs_of_le {s : State} {x : Nibble} (low : s.i.toNat + x.toNat ≤ 0xFFF) :
    after (.storeRegs x) s = (s.memWriteBytes (effectiveAddr s.i 0) (regsUpTo s.v x)).setI
      (indexAfterBlock s.i x) :=
  State.ifInBounds_of_le low

theorem after_loadRegs_of_le {s : State} {x : Nibble} (low : s.i.toNat + x.toNat ≤ 0xFFF) :
    after (.loadRegs x) s =
      (s.setV (loadRegsFrom 0 (s.memReadBytes (effectiveAddr s.i 0) (x.toNat + 1)) s.v)).setI
        (indexAfterBlock s.i x) :=
  State.ifInBounds_of_le low

/-- Every byte after FX55: Vk at I + k, the old byte outside the block (R184). -/
theorem memRead_after_storeRegs {s : State} {x : Nibble} (wf : Memory.wf s.cfg.font s.mem = true)
    (low : s.i.toNat + x.toNat ≤ 0xFFF) :
    (∀ k : Nibble, k.toNat ≤ x.toNat →
      (after (.storeRegs x) s).memRead (effectiveAddr s.i k.toNat) = s.reg k) ∧
    (∀ a, (a < effectiveAddr s.i 0 ∨ effectiveAddr s.i x.toNat < a) →
      (after (.storeRegs x) s).memRead a = s.memRead a) := by
  unfold effectiveAddr
  have read := State.memRead_memWriteBytes (a := s.i.toNat + 0) (bs := regsUpTo s.v x) wf
    (by rw [length_regsUpTo]; omega)
  rw [after_storeRegs_of_le low]
  refine ⟨fun k inside => ?block, fun a outside => ?frame⟩
  case block =>
    refine (read _).trans ?_
    rw [dif_pos (by rw [length_regsUpTo]; omega), getElem_regsUpTo]
    simp only [Nat.add_zero, Nat.add_sub_cancel_left]
    rfl
  case frame =>
    refine (read _).trans ?_
    rw [dif_neg (by rw [length_regsUpTo]; omega)]

/-- Every register after FX65: the byte at I + k inside the block, the old value outside (R185). -/
theorem reg_after_loadRegs {s : State} {x : Nibble} (low : s.i.toNat + x.toNat ≤ 0xFFF) (k : Nibble) :
    (after (.loadRegs x) s).reg k =
      if k.toNat ≤ x.toNat then s.memRead (effectiveAddr s.i k.toNat) else s.reg k := by
  rw [after_loadRegs_of_le low, State.setI_reg, State.reg]
  simp only [State.setV_v, getElem_loadRegsFrom, State.length_memReadBytes,
    State.getElem_memReadBytes]
  by_cases inside : k.toNat ≤ x.toNat
  · rw [dif_pos (by omega), if_pos inside]
    rfl
  · rw [dif_neg (by omega), if_neg inside]
    rfl

/-- Settles O37. -/
theorem storeRegistersAtIndex : Obligations.StoreRegistersAtIndex := by
  intro x s wf
  refine ⟨decodeWord_encode (.storeRegs x), fun low => ?stores, fun out => ?reports⟩
  case reports => exact exec_of_out_of_bounds out rfl
  case stores =>
    obtain ⟨block, outside⟩ := memRead_after_storeRegs wf low
    refine ⟨_, exec_eq _ s, block, outside, ?index, ?rest⟩
    case index => rw [after_storeRegs_of_le low, State.setI_i, toNat_indexAfterBlock]
    case rest => rw [after_storeRegs_of_le low]; rfl

/-- Settles O38. -/
theorem loadRegistersFromIndex : Obligations.LoadRegistersFromIndex := by
  intro x s
  refine ⟨decodeWord_encode (.loadRegs x), fun low => ?loads, fun out => ?reports⟩
  case reports => exact exec_of_out_of_bounds out rfl
  case loads =>
    refine ⟨_, exec_eq _ s, fun k inside => ?loaded, fun k above => ?kept, ?index, ?memory, ?rest⟩
    case loaded => rw [reg_after_loadRegs low, if_pos inside]
    case kept => rw [reg_after_loadRegs low, if_neg (by omega)]
    case index => rw [after_loadRegs_of_le low, State.setI_i, toNat_indexAfterBlock]
    case memory => rw [after_loadRegs_of_le low]; exact fun _ => rfl
    case rest => rw [after_loadRegs_of_le low]; rfl

/-- Settles O39: the load reads the block the store wrote, since I is the same and registers are not memory. -/
theorem storeThenLoadRestoresRegisters : Obligations.StoreThenLoadRestoresRegisters := by
  intro x w s wf low
  obtain ⟨block, -⟩ := memRead_after_storeRegs wf low
  refine ⟨_, _, exec_eq _ s, exec_eq _ _, fun k inside => ?restored, ?index⟩
  case restored =>
    rw [reg_after_loadRegs (s := ((after (.storeRegs x) s).setI s.i).setV w) low, if_pos inside]
    exact block k inside
  case index =>
    rw [after_loadRegs_of_le (s := ((after (.storeRegs x) s).setI s.i).setV w) low,
      after_storeRegs_of_le low]
    rfl

end Sys2Proof.Machine
end

section
/-! The display instructions 00E0 and DXYN (45_display.md R200 to R204): the cells a sprite flips, in the terms of
`spriteCovers`, the two branches of DXYN, and O40 to O42. -/

namespace Sys2Proof.Machine

/-- The cell numbered x + y * 64 is the cell x of row y (R28, log entry 9). -/
theorem Display.pixel_eq_cell (d : Display) {x : Nat} (hx : x ≤ 63) (y : Nat) :
    d.pixel (x + y * 64) = d.cell x y := by
  have column : (x + y * 64) % 64 = x := by omega
  have row : (x + y * 64) / 64 = y := by omega
  rw [Display.pixel, column, row]

/-- Settles O40. -/
theorem clearDisplaySetsDraw : Obligations.ClearDisplaySetsDraw :=
  ⟨decodeWord_encode .cls, fun s =>
    ⟨_, exec_eq _ s, fun _ _ => Display.cell_clear _ _, rfl, fun _ => rfl, rfl⟩⟩

/-! ## The sprite of a state -/

/-- The sprite read from memory at I covers the cells that `spriteCovers` says (R202, R203). -/
theorem rowsBit_memReadBytes (s : State) (x y n : Nibble) (cx cy : Nat) :
    rowsBit (s.memReadBytes (effectiveAddr s.i 0) n.toNat) (s.reg x).toNat (s.reg y).toNat cx cy =
      spriteCovers s x y n cx cy := by
  rw [rowsBit_eq, spriteCovers]
  simp only [State.length_memReadBytes, State.getElem_memReadBytes, rowBit, effectiveAddr, Nat.add_zero]
  by_cases rows : (s.reg y).toNat ≤ cy ∧ cy < (s.reg y).toNat + n.toNat
  · simp [rows]
  · rw [dif_neg rows]
    obtain above | below := not_and_or.mp rows
    · simp [above]
    · simp [below]

/-- DXYN's canvas flips exactly the covered cells, and collides exactly on a covered cell that was 1. -/
theorem State.drawnCanvas_marked (s : State) (x y n : Nibble) :
    Canvas.Marked { disp := s.disp, collision := false } (s.drawnCanvas x y n)
      (spriteCovers s x y n) :=
  (Canvas.drawRows_marked _ _ _ _).congr fun cx cy _ _ => rowsBit_memReadBytes s x y n cx cy

/-- A cell of the grid after DXYN (R202). -/
theorem State.cell_drawSprite (s : State) (x y n : Nibble) {tx ty : Nat} (hx : tx ≤ 63)
    (hy : ty ≤ 31) : (s.drawSprite x y n).disp.cell tx ty =
      (s.disp.cell tx ty ^^ spriteCovers s x y n tx ty) :=
  (s.drawnCanvas_marked x y n).cell tx ty hx hy

/-- DXYN writes VF last among the registers, as a flag (R24). -/
theorem State.drawSprite_reg (s : State) (x y n z : Nibble) : (s.drawSprite x y n).reg z =
    if z = vF then flagByte (s.drawnCanvas x y n).collision else s.reg z := by
  rw [State.drawSprite_eq, State.setDraw_reg, State.reg_setReg, State.setDisp_reg]

theorem flagByte_eq_zero_or_one (f : Bool) : flagByte f = 0#8 ∨ flagByte f = 1#8 := by
  cases f
  · exact .inl rfl
  · exact .inr rfl

theorem flagByte_eq_one_iff (f : Bool) : flagByte f = 1#8 ↔ f = true := by
  cases f <;> decide

/-- VF after DXYN is 1 exactly when a covered cell was 1 (R202). -/
theorem State.drawSprite_flag_iff (s : State) (x y n : Nibble) :
    (s.drawSprite x y n).reg vF = 1#8 ↔ ∃ tx ty, tx ≤ 63 ∧ ty ≤ 31 ∧
      spriteCovers s x y n tx ty = true ∧ s.disp.cell tx ty = true := by
  rw [State.drawSprite_reg, if_pos rfl, flagByte_eq_one_iff, (s.drawnCanvas_marked x y n).collision]
  simp only [Bool.false_eq_true, false_or]

/-! ## The two branches of DXYN -/

/-- The highest sprite byte of DXYN, as the meaning and as the table name it (R63, R204 d). -/
theorem effectiveAddr_sprite (i : Addr) {n : Nibble} (rows : n ≠ 0#4) :
    effectiveAddr i (n.toNat - 1) = i.toNat + n.toNat - 1 := by
  have positive : n.toNat ≠ 0 := fun zero => rows (BitVec.eq_of_toNat_eq zero)
  unfold effectiveAddr
  omega

theorem after_drw_of_rows {s : State} {n : Nibble} (rows : n ≠ 0#4) (x y : Nibble) :
    after (.drw x y n) s = s.ifInBounds (s.i.toNat + n.toNat - 1) (s.drawSprite x y n) := by
  rw [after, if_neg rows, effectiveAddr_sprite s.i rows]

theorem after_drw_of_le {s : State} {n : Nibble}
    (low : n = 0#4 ∨ s.i.toNat + n.toNat - 1 ≤ 0xFFF) (x y : Nibble) :
    after (.drw x y n) s = s.drawSprite x y n := by
  by_cases rows : n = 0#4
  · exact if_pos rows
  · rw [after_drw_of_rows rows, State.ifInBounds_of_le (low.resolve_left rows)]

theorem after_drw_of_lt {s : State} {n : Nibble} (rows : n ≠ 0#4)
    (out : 0xFFF < s.i.toNat + n.toNat - 1) (x y : Nibble) :
    after (.drw x y n) s = s.raise .outOfBounds (s.i.toNat + n.toNat - 1) := by
  rw [after_drw_of_rows rows, State.ifInBounds_of_lt out]

/-- Settles O41. -/
theorem drawFlipsCoveredCells : Obligations.DrawFlipsCoveredCells := by
  intro x y n s
  refine ⟨decodeWord_encode (.drw x y n), fun low => ?draws, fun ⟨rows, out⟩ => ?reports⟩
  case reports => exact exec_of_out_of_bounds out (after_drw_of_rows rows x y)
  case draws =>
    refine ⟨s.drawSprite x y n, by rw [exec_eq, after_drw_of_le low], fun tx ty hx hy => ?cells, ?flag,
      ?zeroOrOne, rfl, fun z other => ?registers, fun _ => rfl, rfl⟩
    case cells =>
      rw [Display.pixel_eq_cell _ hx, Display.pixel_eq_cell _ hx, State.cell_drawSprite s x y n hx hy]
    case flag =>
      rw [State.drawSprite_flag_iff]
      refine exists_congr fun tx => exists_congr fun ty => and_congr_right fun hx => ?_
      rw [Display.pixel_eq_cell _ hx]
    case zeroOrOne =>
      rw [State.drawSprite_reg, if_pos rfl]
      exact flagByte_eq_zero_or_one _
    case registers => rw [State.drawSprite_reg, if_neg other]

/-! ## Drawing twice -/

/-- A sprite at position registers other than VF covers the same cells after it was drawn: I, memory and the
position are as before. -/
theorem spriteCovers_drawSprite (s : State) {x y : Nibble} (n : Nibble) (hx : x ≠ vF) (hy : y ≠ vF)
    (tx ty : Nat) :
    spriteCovers (s.drawSprite x y n) x y n tx ty = spriteCovers s x y n tx ty := by
  have column : (s.drawSprite x y n).reg x = s.reg x := by rw [State.drawSprite_reg, if_neg hx]
  have row : (s.drawSprite x y n).reg y = s.reg y := by rw [State.drawSprite_reg, if_neg hy]
  unfold spriteCovers
  rw [column, row]
  rfl

theorem drawSprite_drawSprite_disp (s : State) {x y : Nibble} (n : Nibble) (hx : x ≠ vF)
    (hy : y ≠ vF) : ((s.drawSprite x y n).drawSprite x y n).disp = s.disp :=
  Display.ext_cell fun tx ty htx hty => by
    rw [State.cell_drawSprite _ x y n htx hty, State.cell_drawSprite s x y n htx hty,
      spriteCovers_drawSprite s n hx hy, Bool.xor_assoc, Bool.xor_self, Bool.xor_false]

/-- A covered cell that is on after the first drawing is one that the first drawing turned on. -/
theorem drawSprite_turned_on_iff (s : State) (x y n : Nibble) {tx ty : Nat} (hx : tx ≤ 63)
    (hy : ty ≤ 31) :
    (spriteCovers s x y n tx ty = true ∧ (s.drawSprite x y n).disp.cell tx ty = true) ↔
      (s.disp.cell tx ty = false ∧ (s.drawSprite x y n).disp.cell tx ty = true) := by
  rw [State.cell_drawSprite s x y n hx hy]
  cases spriteCovers s x y n tx ty <;> cases s.disp.cell tx ty <;> decide

/-- Settles O42: the second drawing flips the same cells back; out of bounds both only report. -/
theorem drawingTwiceRestoresDisplay : Obligations.DrawingTwiceRestoresDisplay := by
  intro x y n s hx hy
  refine ⟨_, _, exec_eq _ s, exec_eq _ _, ?restored, fun low => ?flag⟩
  case restored =>
    by_cases low : n = 0#4 ∨ s.i.toNat + n.toNat - 1 ≤ 0xFFF
    · rw [after_drw_of_le low, after_drw_of_le (s := s.drawSprite x y n) low,
        drawSprite_drawSprite_disp s n hx hy]
    · obtain ⟨rows, out⟩ := not_or.mp low
      have high := Nat.lt_of_not_le out
      rw [after_drw_of_lt (s := s) rows high, after_drw_of_lt (s := s.raise _ _) rows high]
      rfl
  case flag =>
    rw [after_drw_of_le low, after_drw_of_le (s := s.drawSprite x y n) low, State.drawSprite_flag_iff]
    refine exists_congr fun tx => exists_congr fun ty => and_congr_right fun htx =>
      and_congr_right fun hty => ?_
    rw [Display.pixel_eq_cell _ htx, Display.pixel_eq_cell _ htx, spriteCovers_drawSprite s n hx hy]
    exact drawSprite_turned_on_iff s x y n htx hty

end Sys2Proof.Machine
end

section
/-! What an instruction may change (the table of 10_state.md R20, with R24, R25, R28, R60 and R186), said once
as a frame that every named update it uses respects; then the rules about every cycle that follow from it: O46 to
O52 and O54. -/

namespace Sys2Proof.Machine

/-! ## The frame of an instruction -/

/-- From `s` to `t` nothing has changed but what `i` may write by the tables of Sys2Proof/Safety.lean. PC, ERR and
the report are left out: every instruction may move PC, and four conditions write the other two. -/
structure Frame (i : Instr) (s t : State) : Prop where
  index : Instr.writesIndex i = false → t.i = s.i := by intros; rfl
  stack : Instr.writesStack i = false → t.stack = s.stack := by intros; rfl
  display : Instr.writesDisplay i = false → t.disp = s.disp ∧ t.draw = s.draw := by intros; exact ⟨rfl, rfl⟩
  memory : Instr.writesMemory i = false → t.mem = s.mem := by intros; rfl
  regs : ∀ z, Instr.writesOperand z i = false → (z = vF → Instr.writesFlag i = false) →
    t.reg z = s.reg z := by intros; rfl
  delay : (∀ x, i ≠ .ldToDt x) → t.dt = s.dt := by intros; rfl
  sound : (∀ x, i ≠ .ldToSt x) → t.st = s.st := by intros; rfl
  keys : t.key = s.key := by rfl
  divider : t.tdiv = s.tdiv := by rfl
  draws : t.rndCount = s.rndCount := by rfl
  parameters : t.cfg = s.cfg := by rfl

namespace Frame

variable {i : Instr}

theorem trans {s t u : State} (h : Frame i s t) (h' : Frame i t u) : Frame i s u where
  index w := (h'.index w).trans (h.index w)
  stack w := (h'.stack w).trans (h.stack w)
  display w :=
    ⟨(h'.display w).1.trans (h.display w).1, (h'.display w).2.trans (h.display w).2⟩
  memory w := (h'.memory w).trans (h.memory w)
  regs z w f := (h'.regs z w f).trans (h.regs z w f)
  delay w := (h'.delay w).trans (h.delay w)
  sound w := (h'.sound w).trans (h.sound w)
  keys := h'.keys.trans h.keys
  divider := h'.divider.trans h.divider
  draws := h'.draws.trans h.draws
  parameters := h'.parameters.trans h.parameters

/-! One law per named update: it is in the frame of every instruction that may write what it writes. -/

theorem setPc (s : State) (a : Addr) : Frame i s (s.setPc a) where

theorem raise (s : State) (c : Condition) (a : Nat) : Frame i s (s.raise c a) where

theorem setI (w : Instr.writesIndex i = true) (s : State) (a : Addr) : Frame i s (s.setI a) where
  index h := by rw [w] at h; cases h

theorem setStack (w : Instr.writesStack i = true) (s : State) (l : List Addr) :
    Frame i s (s.setStack l) where
  stack h := by rw [w] at h; cases h

theorem setDisp (w : Instr.writesDisplay i = true) (s : State) (d : Display) :
    Frame i s (s.setDisp d) where
  display h := by rw [w] at h; cases h

theorem setDraw (w : Instr.writesDisplay i = true) (s : State) (b : Bool) : Frame i s (s.setDraw b) where
  display h := by rw [w] at h; cases h

theorem memWriteBytes (w : Instr.writesMemory i = true) (s : State) (a : Nat) (bs : List Byte) :
    Frame i s (s.memWriteBytes a bs) where
  memory h := by rw [w] at h; cases h

theorem setReg {x : Nibble} (w : Instr.writesOperand x i = true) (s : State) (b : Byte) :
    Frame i s (s.setReg x b) where
  regs z h _ := by
    rw [State.reg_setReg, if_neg]
    rintro rfl
    rw [w] at h
    cases h

theorem setFlag (w : Instr.writesFlag i = true) (s : State) (b : Byte) : Frame i s (s.setReg vF b) where
  regs z _ h := by
    rw [State.reg_setReg, if_neg]
    intro isFlag
    rw [w] at h
    cases h isFlag

theorem flagThenResult {x : Nibble} (w : Instr.writesOperand x i = true) (f : Instr.writesFlag i = true)
    (s : State) (b : Byte) (c : Bool) : Frame i s (s.flagThenResult x b c) :=
  (setFlag f s _).trans (setReg w _ b)

theorem resultThenFlag {x : Nibble} (w : Instr.writesOperand x i = true) (f : Instr.writesFlag i = true)
    (s : State) (b : Byte) (c : Bool) : Frame i s (s.resultThenFlag x b c) :=
  (setReg w s b).trans (setFlag f _ _)

theorem drawSprite (d : Instr.writesDisplay i = true) (f : Instr.writesFlag i = true) (s : State)
    (x y n : Nibble) : Frame i s (s.drawSprite x y n) :=
  ((setDisp d s _).trans (setFlag f _ _)).trans (setDraw d _ true)

theorem skipIf (s : State) (c : Bool) : Frame i s (s.skipIf c) := by
  rw [State.skipIf_eq]
  exact setPc s _

theorem ifInBounds {s e : State} (h : Frame i s e) (highest : Nat) :
    Frame i s (s.ifInBounds highest e) := by
  unfold State.ifInBounds
  split
  · exact raise s _ _
  · exact h

end Frame

/-- The bytes FX65 loads land on V0 to Vx (R185). -/
theorem frame_loadRegs (s : State) (x : Nibble) (bs : List Byte) (hb : bs.length = x.toNat + 1) :
    Frame (.loadRegs x) s (s.setV (loadRegsFrom 0 bs s.v)) where
  regs z h _ := by
    have outside : x.toNat < z.toNat := by simpa [Instr.writesOperand] using h
    unfold State.reg
    rw [State.setV_v, getElem_loadRegsFrom, dif_neg (by omega)]

/-- Every instruction keeps to its frame. -/
theorem after_frame (i : Instr) (s : State) : Frame i s (after i s) := by
  cases i
  case cls => exact (Frame.setDisp rfl s _).trans (Frame.setDraw rfl _ true)
  case ret =>
    simp only [after]
    split
    · exact Frame.raise s _ _
    · exact (Frame.setStack rfl s _).trans (Frame.setPc _ _)
  case call =>
    simp only [after]
    split
    · exact Frame.raise s _ _
    · exact (Frame.setStack rfl s _).trans (Frame.setPc _ _)
  case jp | jpV0 => exact Frame.setPc s _
  case seImm | sneImm | seReg | sneReg | skp | sknp => exact Frame.skipIf s _
  case ldImm | addImm | ldReg | orReg | andReg | xorReg | rnd | ldFromDt =>
    exact Frame.setReg (beq_self_eq_true _) s _
  case addReg => exact Frame.resultThenFlag (beq_self_eq_true _) rfl s _ _
  case subReg | shr | subnReg | shl => exact Frame.flagThenResult (beq_self_eq_true _) rfl s _ _
  case ldI | ldGlyph => exact Frame.setI rfl s _
  case addI => exact (Frame.setI rfl s _).trans (Frame.setFlag rfl _ _)
  case drw =>
    simp only [after]
    split
    · exact Frame.drawSprite rfl rfl s _ _ _
    · exact (Frame.drawSprite rfl rfl s _ _ _).ifInBounds _
  case waitKey =>
    simp only [after]
    split
    · exact Frame.setPc s _
    · exact Frame.setReg (beq_self_eq_true _) s _
  case ldToDt => exact { delay := fun h => absurd rfl (h _) }
  case ldToSt => exact { sound := fun h => absurd rfl (h _) }
  case storeBcd => exact (Frame.memWriteBytes rfl s _ _).ifInBounds _
  case storeRegs => exact ((Frame.memWriteBytes rfl s _ _).trans (Frame.setI rfl _ _)).ifInBounds _
  case loadRegs =>
    exact ((frame_loadRegs s _ _ (State.length_memReadBytes s _ _)).trans
      (Frame.setI rfl _ _)).ifInBounds _

/-! ## The frame of a cycle -/

/-- The pre-advance moves PC and the report alone (R122). -/
theorem Frame.preAdvance (i : Instr) (s : State) (iw : Word) : Frame i s (s.preAdvance iw) where

/-- What a cycle has changed when the tick comes is in the frame of the instruction it executes, and a cycle that
executes nothing has only reported. -/
theorem State.beforeTick_of_frame {s : State} {P : State → Prop}
    (reported : ∀ iw c a, P ((s.preAdvance iw).raise c a))
    (framed : ∀ i t, Executes s i → Frame i s t → P t) : P s.beforeTick :=
  State.beforeTick_induction reported fun iw i h =>
    framed i _ h ((Frame.preAdvance i s iw).trans (after_frame i _))

@[simp] theorem State.beforeTick_cfg (s : State) : s.beforeTick.cfg = s.cfg :=
  State.beforeTick_of_frame (P := fun t => t.cfg = s.cfg) (fun _ _ _ => rfl)
    fun _ _ _ frame => frame.parameters

@[simp] theorem State.beforeTick_key (s : State) : s.beforeTick.key = s.key :=
  State.beforeTick_of_frame (P := fun t => t.key = s.key) (fun _ _ _ => rfl)
    fun _ _ _ frame => frame.keys

@[simp] theorem State.beforeTick_tdiv (s : State) : s.beforeTick.tdiv = s.tdiv :=
  State.beforeTick_of_frame (P := fun t => t.tdiv = s.tdiv) (fun _ _ _ => rfl)
    fun _ _ _ frame => frame.divider

theorem State.beforeTick_dt {s : State} (absent : ∀ x, ¬ Executes s (.ldToDt x)) :
    s.beforeTick.dt = s.dt :=
  State.beforeTick_of_frame (P := fun t => t.dt = s.dt) (fun _ _ _ => rfl)
    fun _ _ h frame => frame.delay fun x hx => absent x (hx ▸ h)

theorem State.beforeTick_st {s : State} (absent : ∀ x, ¬ Executes s (.ldToSt x)) :
    s.beforeTick.st = s.st :=
  State.beforeTick_of_frame (P := fun t => t.st = s.st) (fun _ _ _ => rfl)
    fun _ _ h frame => frame.sound fun x hx => absent x (hx ▸ h)

/-! ## The rules about every cycle -/

/-- Settles O54. -/
theorem cyclesNeverChangeKeysOrParameters : Obligations.CyclesNeverChangeKeysOrParameters := by
  intro s
  refine ⟨_, step_eq s, ?keys, ?parameters⟩
  case keys => rw [State.finishCycle_key, State.beforeTick_key]
  case parameters => rw [State.finishCycle_cfg, State.beforeTick_cfg]

/-- Settles O48. -/
theorem indexChangedOnlyByItsInstructions : Obligations.IndexChangedOnlyByItsInstructions := by
  intro s
  refine ⟨_, step_eq s, fun absent => ?_⟩
  rw [State.finishCycle_i]
  exact State.beforeTick_of_frame (P := fun t => t.i = s.i) (fun _ _ _ => rfl)
    fun i _ h frame => frame.index (absent i h)

/-- Settles O51: the same bytes are listed, so under the same font every address reads as before. -/
theorem memoryChangedOnlyByStores : Obligations.MemoryChangedOnlyByStores := by
  intro s
  refine ⟨_, step_eq s, fun absent => ?_⟩
  have same : s.beforeTick.mem = s.mem :=
    State.beforeTick_of_frame (P := fun t => t.mem = s.mem) (fun _ _ _ => rfl)
      fun i _ h frame => frame.memory (absent i h)
  refine ⟨by rw [State.finishCycle_mem, same], SameMemory.of_eq ?_ ?_⟩
  · rw [State.finishCycle_mem, same]
  · rw [State.finishCycle_cfg, State.beforeTick_cfg]

/-- Settles O52. -/
theorem registersChangedOnlyByTheirWriters : Obligations.RegistersChangedOnlyByTheirWriters := by
  intro s
  refine ⟨_, step_eq s, fun z absent => ?_⟩
  rw [State.finishCycle_reg]
  exact State.beforeTick_of_frame (P := fun t => t.reg z = s.reg z) (fun _ _ _ => rfl)
    fun i _ h frame => frame.regs z (absent i h).1 (absent i h).2

/-- An instruction that writes the display sets DRAW, unless it reports (R29, D15). -/
theorem after_draw_of_draw (i : Instr) {s : State} (dirty : s.draw = true) :
    (after i s).draw = true := by
  by_cases w : Instr.writesDisplay i = false
  · rw [((after_frame i s).display w).2, dirty]
  · cases i
    case cls => rfl
    case drw =>
      simp only [after]
      split
      · rfl
      · rw [State.ifInBounds_draw]
        exact ite_eq_iff'.mpr ⟨fun _ => dirty, fun _ => rfl⟩
    all_goals exact absurd rfl w

/-- Settles O50. -/
theorem displayChangedOnlyByClearAndDraw : Obligations.DisplayChangedOnlyByClearAndDraw := by
  intro s
  refine ⟨_, step_eq s, fun absent => ?frame, fun dirty => ?stays⟩
  case frame =>
    rw [State.finishCycle_disp, State.finishCycle_draw]
    exact State.beforeTick_of_frame (P := fun t => t.disp = s.disp ∧ t.draw = s.draw)
      (fun _ _ _ => ⟨rfl, rfl⟩) fun i _ h frame => frame.display (absent i h)
  case stays =>
    rw [State.finishCycle_draw]
    exact State.beforeTick_induction (P := fun t => t.draw = true) (fun _ _ _ => dirty)
      fun iw i _ => after_draw_of_draw i (s := s.preAdvance iw) dirty

/-- What an instruction does to the stack: nothing, one entry more on a stack that is not full, or one less
(R25). -/
theorem after_stack_cases (i : Instr) (s : State) : (after i s).stack = s.stack ∨
    (s.cfg.stackDepth ≠ some s.stack.length ∧ (after i s).stack = s.stack ++ [s.pc]) ∨
    ∃ a, s.stack = (after i s).stack ++ [a] := by
  by_cases w : Instr.writesStack i = false
  · exact .inl ((after_frame i s).stack w)
  · cases i
    case call nnn =>
      by_cases full : s.cfg.stackDepth = some s.stack.length
      · rw [after_call_of_full full]
        exact .inl rfl
      · rw [after_call_of_not_full full]
        exact .inr (.inl ⟨full, rfl⟩)
    case ret =>
      obtain empty | ⟨l, a, top⟩ := s.stack.eq_nil_or_concat'
      · rw [after_ret_of_nil empty]
        exact .inl rfl
      · rw [after_ret_of_append top]
        exact .inr (.inr ⟨a, top⟩)
    all_goals exact absurd rfl w

/-- Settles O49. -/
theorem stackChangedOnlyByCallAndReturn : Obligations.StackChangedOnlyByCallAndReturn := by
  intro s
  refine ⟨_, step_eq s, fun absent => ?frame, ?atTop⟩
  case frame =>
    rw [State.finishCycle_stack]
    exact State.beforeTick_of_frame (P := fun t => t.stack = s.stack) (fun _ _ _ => rfl)
      fun i _ h frame => frame.stack (absent i h)
  case atTop =>
    rw [State.finishCycle_stack]
    refine State.beforeTick_induction (P := fun t => t.stack = s.stack ∨
      t.stack = s.stack ++ [s.pc + 2] ∨ ∃ a, s.stack = t.stack ++ [a]) (fun _ _ _ => .inl rfl) ?_
    intro iw i _
    exact (after_stack_cases i (s.preAdvance iw)).imp id (Or.imp And.right id)

/-! ## The timers in every cycle -/

/-- Settles O46: no instruction moves the divider or the ratio, so the tick of every cycle is the one of R128. -/
theorem timersTickInEveryCycle : Obligations.TimersTickInEveryCycle := by
  intro s
  refine ⟨_, step_eq s, ?divider, fun absent => ?delay, fun absent => ?sound⟩
  case divider =>
    rw [State.finishCycle_tdiv, State.timerTick_tdiv, State.beforeTick_tdiv, State.beforeTick_cfg]
  case delay =>
    rw [State.finishCycle_dt, State.timerTick_dt, State.beforeTick_tdiv, State.beforeTick_cfg,
      State.beforeTick_dt absent, apply_ite BitVec.toNat, toNat_countDown]
  case sound =>
    rw [State.finishCycle_st, State.timerTick_st, State.beforeTick_tdiv, State.beforeTick_cfg,
      State.beforeTick_st absent, apply_ite BitVec.toNat, toNat_countDown]

/-- A run of cycles begins with one cycle. -/
theorem cycles_succ (k : Nat) (s : State) :
    cycles (k + 1) s = cycles k s.beforeTick.finishCycle := by
  simp only [cycles, List.replicate_succ, hostRun, hostCall, step_eq]

/-- Settles O47, by induction on the number of cycles: the first takes one off DT and leaves TDIV at 0, and the
rest are a run from the state it leaves. -/
theorem delayTimerCountsDownOverCycles : Obligations.DelayTimerCountsDownOverCycles := by
  intro k
  induction k with
  | zero => exact fun s _ _ _ => ⟨s, rfl, rfl⟩
  | succ k ih =>
    intro s ratio divider absent
    have first : ∀ x, ¬ Executes s (.ldToDt x) := absent 0 s (Nat.succ_pos k) rfl
    have reaches : s.beforeTick.tdiv + 1 = s.beforeTick.cfg.cyclesPerTimerTick := by
      rw [State.beforeTick_tdiv, State.beforeTick_cfg, State.tdiv_reaches_ratio_one ratio divider]
    have delay := State.toNat_finishCycle_dt_of_reaches reaches
    rw [State.beforeTick_dt first] at delay
    obtain ⟨t, completes, rest⟩ := ih s.beforeTick.finishCycle
      (by rw [State.finishCycle_cfg, State.beforeTick_cfg, ratio])
      (by rw [State.finishCycle_tdiv, State.timerTick_tdiv, if_pos reaches])
      (fun j u below run => absent (j + 1) u (Nat.succ_lt_succ below) (by rw [cycles_succ, run]))
    exact ⟨t, by rw [cycles_succ, completes], by rw [rest, delay]; omega⟩

end Sys2Proof.Machine
end

section
/-! The range invariant (10_state.md R36) over cycles and host operations, and the host's operations themselves
(47_host_operations.md R230 to R240): O1 to O5, O9, O56 to O58. -/

namespace Sys2Proof.Machine

/-! ## The range invariant over a cycle -/

/-- The invariant speaks of memory, the stack, the divider and the parameters alone. -/
theorem Inv.of_eq {s t : State} (inv : Inv s) (mem : t.mem = s.mem) (stack : t.stack = s.stack)
    (tdiv : t.tdiv = s.tdiv) (cfg : t.cfg = s.cfg) : Inv t where
  memory := by rw [mem, cfg]; exact inv.memory
  divider := by rw [tdiv, cfg]; exact inv.divider
  depth := by rw [stack, cfg]; exact inv.depth

/-- A checked block store keeps the canonical form: out of bounds it stores nothing (R63). -/
theorem State.wf_ifInBounds {s e : State} {h : Nat} (wf : Memory.wf s.cfg.font s.mem = true)
    (stored : h ≤ 0xFFF → Memory.wf s.cfg.font e.mem = true) :
    Memory.wf s.cfg.font (s.ifInBounds h e).mem = true := by
  rw [State.ifInBounds_mem]
  split
  · exact wf
  · exact stored (by omega)

/-- Every instruction keeps memory canonical: FX33 and FX55 store inside the address space, the others store
nothing (R60, R63). -/
theorem after_wf (i : Instr) {s : State} (wf : Memory.wf s.cfg.font s.mem = true) :
    Memory.wf s.cfg.font (after i s).mem = true := by
  by_cases w : Instr.writesMemory i = false
  · rw [(after_frame i s).memory w]
    exact wf
  · cases i
    case storeBcd x =>
      refine State.wf_ifInBounds wf fun low => Memory.wf_writeBytes wf ?_
      rw [length_decimalDigits]
      unfold effectiveAddr at *
      omega
    case storeRegs x =>
      refine State.wf_ifInBounds wf fun low => Memory.wf_writeBytes wf ?_
      rw [length_regsUpTo]
      unfold effectiveAddr at *
      omega
    all_goals exact absurd rfl w

/-- Every instruction keeps the stack within its depth: 2NNN pushes only below it (R142, D7). -/
theorem after_depth (i : Instr) {s : State} {d : Nat} (depth : s.cfg.stackDepth = some d)
    (within : s.stack.length ≤ d) : (after i s).stack.length ≤ d := by
  obtain same | ⟨room, pushed⟩ | ⟨a, popped⟩ := after_stack_cases i s
  · rw [same]
    exact within
  · have below : s.stack.length ≠ d := fun full => room (by rw [depth, full])
    rw [pushed, List.length_append, List.length_singleton]
    omega
  · have shorter := congrArg List.length popped
    rw [List.length_append, List.length_singleton] at shorter
    omega

theorem Inv.after {s : State} (inv : Inv s) (i : Instr) : Inv (after i s) where
  memory := by rw [(after_frame i s).parameters]; exact after_wf i inv.memory
  divider := by rw [(after_frame i s).divider, (after_frame i s).parameters]; exact inv.divider
  depth d h := by
    rw [(after_frame i s).parameters] at h
    exact after_depth i h (inv.depth d h)

theorem Inv.beforeTick {s : State} (inv : Inv s) : Inv s.beforeTick :=
  State.beforeTick_induction (fun _ _ _ => inv.of_eq rfl rfl rfl rfl)
    fun iw i _ => (inv.of_eq (t := s.preAdvance iw) rfl rfl rfl rfl).after i

/-- The tick returns TDIV to 0 when it would reach the ratio (R128). -/
theorem Inv.finishCycle {s : State} (inv : Inv s) : Inv s.finishCycle where
  memory := by rw [State.finishCycle_cfg, State.finishCycle_mem]; exact inv.memory
  divider := by
    have below := inv.divider
    rw [State.finishCycle_tdiv, State.timerTick_tdiv, State.finishCycle_cfg]
    split <;> omega
  depth := by rw [State.finishCycle_cfg, State.finishCycle_stack]; exact inv.depth

/-- Settles O4: the instruction keeps the invariant, and so does the tick. -/
theorem stepKeepsRangeInvariant : Obligations.StepKeepsRangeInvariant := by
  intro s t inv h
  rw [eq_of_step_eq_next h]
  exact inv.beforeTick.finishCycle

/-! ## Reset -/

theorem inv_resetWith {cfg : Config} (wf : cfg.Wf) : Inv (State.resetWith cfg) where
  memory := Memory.wf_nil
  divider := wf
  depth d _ := Nat.zero_le d

/-- Settles O3. -/
theorem resetMeetsRangeInvariant : Obligations.ResetMeetsRangeInvariant :=
  ⟨inv_resetWith (by decide), fun _ => inv_resetWith⟩

/-- An unlisted address below 0x050 reads as its byte of the font (R22, R37). -/
theorem Memory.unlisted_glyph (font : Font) {g b : Nat} (hg : g < 16) (hb : b < 5) :
    Memory.unlisted font (5 * g + b) = font[g][b] := by
  have glyph : (5 * g + b) / 5 = g := by omega
  have row : (5 * g + b) % 5 = b := by omega
  rw [Memory.unlisted, dif_pos (by omega)]
  simp only [glyph, row]

theorem Memory.unlisted_above_font (font : Font) {a : Nat} (h : 80 ≤ a) :
    Memory.unlisted font a = 0x00#8 :=
  dif_neg (by omega)

/-- Settles O1: memory lists nothing, and registers, keys and cells are replicated zeros. -/
theorem resetGivesTabledValues : Obligations.ResetGivesTabledValues := by
  intro cfg
  refine ⟨fun g b hg hb => Memory.unlisted_glyph cfg.font hg hb,
    fun a ha => Memory.unlisted_above_font cfg.font ha, ?registers, rfl, rfl, rfl, ?cells, rfl, ?keys,
    rfl, rfl, rfl, rfl⟩
  case registers => exact fun z => Vector.getElem_replicate z.isLt
  case cells => exact fun p => Display.cell_clear _ _
  case keys => exact fun k => Vector.getElem_replicate k.isLt

/-- Settles O2: what `resetCore` leaves names nothing of the old state but its parameters and draw count. -/
theorem hostResetIgnoresOldState : Obligations.HostResetIgnoresOldState := by
  intro s t same
  refine ⟨rfl, rfl, ?forgets⟩
  case forgets =>
    unfold State.resetCore
    rw [same]
    rfl

/-! ## The host's operations -/

/-- A failing operation leaves the state, a succeeding one leaves its result (R231, R234). -/
theorem Inv.orFail {s : State} (inv : Inv s) {r : Except HostFailure State}
    (ok : ∀ t, r = .ok t → Inv t) : Inv (s.orFail r).1 := by
  cases r with
  | error f => exact inv
  | ok t => exact ok t rfl

theorem Inv.loadProgram {s t : State} (inv : Inv s) {bytes : List Byte}
    (h : s.loadProgram bytes = .ok t) : Inv t := by
  unfold State.loadProgram at h
  split at h
  · cases h
  · cases h
    exact ⟨Memory.wf_writeBytes inv.memory (by omega), inv.divider, inv.depth⟩

theorem Inv.setKeyState {s t : State} (inv : Inv s) {k : Nat} {d : Bool}
    (h : s.setKeyState k d = .ok t) : Inv t := by
  unfold State.setKeyState at h
  split at h
  · cases h
    exact inv.of_eq rfl rfl rfl rfl
  · cases h

/-- What an operation of the host leaves and hands back. -/
def hostResult (c : HostCall) (s : State) : State × HostReply :=
  match c with
  | .resetCore => (s.resetCore, .done)
  | .loadProgram bytes => s.orFail (s.loadProgram bytes)
  | .runCycle => (s.beforeTick.finishCycle, .report s.beforeTick.report)
  | .setKeyState k d => s.orFail (s.setKeyState k d)
  | .getDisplayBuffer => (s, .display s.disp)
  | .consumeDirtyFlag => (s.consumeDirtyFlag.2, .dirty s.consumeDirtyFlag.1)
  | .getSoundTimerValue => (s, .sound s.st)
  | .readErr => (s, .status s.err)

/-- Every operation answers: only `runCycle` is a step, and a step always answers (R130). -/
theorem hostCall_eq (c : HostCall) (s : State) : hostCall c s = .next (hostResult c s) := by
  cases c
  case runCycle => simp only [hostCall, step_eq, hostResult, State.finishCycle_report]
  all_goals rfl

theorem Inv.hostResult {s : State} (inv : Inv s) (c : HostCall) : Inv (hostResult c s).1 := by
  cases c
  case resetCore =>
    have wf : s.cfg.Wf := Nat.lt_of_le_of_lt (Nat.zero_le _) inv.divider
    exact (inv_resetWith wf).of_eq rfl rfl rfl rfl
  case loadProgram => exact inv.orFail fun _ => inv.loadProgram
  case runCycle => exact inv.beforeTick.finishCycle
  case setKeyState => exact inv.orFail fun _ => inv.setKeyState
  case consumeDirtyFlag => exact inv.of_eq rfl rfl rfl rfl
  case getDisplayBuffer | getSoundTimerValue | readErr => exact inv

/-- Settles O5. -/
theorem hostCallsKeepRangeInvariant : Obligations.HostCallsKeepRangeInvariant := by
  intro c s t r inv h
  rw [hostCall_eq] at h
  injection h with same
  have kept := inv.hostResult c
  rw [same] at kept
  exact kept

/-- Settles O9, by induction on the list of operations. -/
theorem hostRunAlwaysAnswers : Obligations.HostRunAlwaysAnswers := by
  intro cs
  induction cs with
  | nil => exact fun s => ⟨s, rfl⟩
  | cons c cs ih =>
    intro s
    obtain ⟨t, run⟩ := ih (hostResult c s).1
    exact ⟨t, by rw [hostRun, hostCall_eq]; exact run⟩

/-- Settles O56: the image is one block store at 0x200, which ends at 0xFFF at the latest. -/
theorem loadProgramCopiesImageOnly : Obligations.LoadProgramCopiesImageOnly := by
  intro bytes s wf
  refine ⟨fun fits => ?copied, fun long => ?refused⟩
  case refused => rw [hostCall, State.loadProgram, if_pos long, State.orFail]
  case copied =>
    have read := State.memRead_memWriteBytes (a := 0x200) (bs := bytes) wf (by omega)
    refine ⟨s.memWriteBytes 0x200 bytes, ?answer, fun k hk => ?image, fun a outside => ?frame, rfl⟩
    case answer => rw [hostCall, State.loadProgram, if_neg (by omega), State.orFail]
    case image =>
      rw [read, dif_pos (by omega)]
      simp only [Nat.add_sub_cancel_left]
    case frame => rw [read, dif_neg (by omega)]

/-- One key after a key event (R234). -/
theorem State.keyDown_setKey_set (s : State) (j k : Nibble) (d : Bool) :
    (s.setKey (s.key.set k.toNat d k.isLt)).keyDown j = if j = k then d else s.keyDown j := by
  unfold State.keyDown
  simp only [State.setKey_key, Vector.getElem_set, eq_comm, BitVec.toNat_inj]

/-- Settles O57. -/
theorem setKeyStateSetsOneKey : Obligations.SetKeyStateSetsOneKey := by
  intro d s
  refine ⟨fun k => ?set, fun k high => ?refused⟩
  case refused => rw [hostCall, State.setKeyState, dif_neg (by omega), State.orFail]
  case set =>
    refine ⟨s.setKey (s.key.set k.toNat d k.isLt), ?answer, ?key, fun j other => ?others,
      s.setKey_memRead _, rfl⟩
    case answer => rw [hostCall, State.setKeyState, dif_pos k.isLt, State.orFail]
    case key => rw [State.keyDown_setKey_set, if_pos rfl]
    case others => rw [State.keyDown_setKey_set, if_neg other]

/-- Settles O58. -/
theorem hostReadsAndDirtyFlag : Obligations.HostReadsAndDirtyFlag := by
  intro s
  refine ⟨rfl, fun x y hx hy => ?cells, rfl, rfl, rfl, rfl⟩
  case cells =>
    rw [Display.pixel_eq_cell _ (Nat.le_of_lt_succ hx), Display.cell, dif_pos (by omega)]

end Sys2Proof.Machine
end

section
/-! What a cycle reports and where it leaves PC (40_cycle.md R127 and R131, 60_exceptions.md R250 to R259): an
instruction meets no condition and writes neither report nor ERR, or meets one and does nothing but raise it; O10
to O12, O53, O55 and O59. -/

namespace Sys2Proof.Machine

/-! ## Quiet or raising -/

/-- From `s` to `t` an execution met the condition `c` with its address: none, and then the report and ERR are
untouched, or one, and then `t` is `s` with that condition raised and nothing else (R127, R259). -/
inductive Meets (s t : State) : Condition × BitVec 13 → Prop where
  | quiet (report : t.report = s.report) (err : t.err = s.err) : Meets s t (.noCondition, 0#13)
  | raised {c : Condition} {a : Nat} (real : c ≠ .noCondition) (raise : t = s.raise c a) :
      Meets s t (c, BitVec.ofNat 13 a)

theorem Meets.ifInBounds (s e : State) (h : Nat) (report : e.report = s.report)
    (err : e.err = s.err) : Meets s (s.ifInBounds h e)
      (if 0xFFF < h then (.outOfBounds, BitVec.ofNat 13 h) else (.noCondition, 0#13)) := by
  unfold State.ifInBounds
  split
  · exact .raised (by decide) rfl
  · exact .quiet report err

/-- Every instruction meets the one condition of R250's table. -/
theorem after_meets (i : Instr) (s : State) : Meets s (after i s) (conditionOf s i) := by
  cases i
  case ret =>
    obtain empty | ⟨l, a, top⟩ := s.stack.eq_nil_or_concat'
    · rw [after_ret_of_nil empty, conditionOf, if_pos empty]
      exact .raised (by decide) rfl
    · rw [after_ret_of_append top, conditionOf, if_neg (by simp [top])]
      exact .quiet rfl rfl
  case call nnn =>
    by_cases full : s.cfg.stackDepth = some s.stack.length
    · rw [after_call_of_full full, conditionOf, if_pos full]
      exact .raised (by decide) rfl
    · rw [after_call_of_not_full full, conditionOf, if_neg full]
      exact .quiet rfl rfl
  case drw x y n =>
    by_cases empty : n = 0#4
    · rw [after_drw_of_le (.inl empty)]
      simp only [conditionOf, highestAddr, if_pos empty]
      exact .quiet rfl rfl
    · rw [after_drw_of_rows empty]
      simp only [conditionOf, highestAddr, if_neg empty]
      exact .ifInBounds s _ _ rfl rfl
  case storeBcd | storeRegs | loadRegs => exact .ifInBounds s _ _ rfl rfl
  case seImm | sneImm | seReg | sneReg | skp | sknp =>
    exact .quiet (State.skipIf_report s _) (State.skipIf_err s _)
  case waitKey =>
    simp only [after]
    split <;> exact .quiet rfl rfl
  all_goals exact .quiet rfl rfl

/-- The condition of an instruction is that of the state its cycle begins in: it looks at I, the stack and the
parameters, which the pre-advance leaves alone. -/
theorem conditionOf_preAdvance (s : State) (iw : Word) (i : Instr) :
    conditionOf (s.preAdvance iw) i = conditionOf s i := by
  cases i <;> rfl

theorem Meets.report_eq {s t : State} {c : Condition × BitVec 13} (h : Meets s t c)
    (code : s.report.code = .noCondition) (addr : s.report.addr = 0#13) :
    t.report = { s.report with code := c.1, addr := c.2 } := by
  cases h with
  | quiet report _ => rw [report, ← code, ← addr]
  | raised _ raise => rw [raise, State.raise_report]

/-- Whatever the condition's name: the report and ERR are untouched, or raising is all that happens (R127). -/
theorem after_quiet_or_raised (i : Instr) (s : State) :
    ((after i s).report = s.report ∧ (after i s).err = s.err) ∨
    ∃ c a, after i s = s.raise c a := by
  have met := after_meets i s
  generalize conditionOf s i = c at met
  cases met with
  | quiet report err => exact .inl ⟨report, err⟩
  | raised _ raise => exact .inr ⟨_, _, raise⟩

/-! ## The report of a cycle -/

theorem State.beforeTick_report (s : State) : s.beforeTick.report = reportOfCycle s := by
  unfold State.beforeTick reportOfCycle
  cases s.fetchWord with
  | none => rfl
  | some iw =>
    cases h : decodeWord iw with
    | error e => simp only [h]; rfl
    | ok i =>
      have met := after_meets i (s.preAdvance iw)
      rw [conditionOf_preAdvance] at met
      simp only [h, met.report_eq rfl rfl, State.preAdvance_report]

/-- ERR gains the bit of the cycle's own report (R33). -/
theorem State.beforeTick_err (s : State) :
    s.beforeTick.err = s.err ||| s.beforeTick.report.code.errBit := by
  refine State.beforeTick_induction (P := fun t => t.err = s.err ||| t.report.code.errBit)
    (fun _ _ _ => rfl) fun iw i _ => ?_
  obtain ⟨report, err⟩ | ⟨c, a, raise⟩ := after_quiet_or_raised i (s.preAdvance iw)
  · rw [report, err, State.preAdvance_report]
    exact (Condition.or_errBit_noCondition s.err).symm
  · rw [raise]
    rfl

/-- A cycle whose report is a condition has only advanced PC and reported (R127). -/
theorem State.beforeTick_of_reported {s : State} (real : s.beforeTick.report.code ≠ .noCondition) :
    s.beforeTick = { s with
      pc := s.pc + 2, report := s.beforeTick.report
      err := s.err ||| s.beforeTick.report.code.errBit } := by
  refine State.beforeTick_induction (P := fun t => t.report.code ≠ .noCondition →
    t = { s with pc := s.pc + 2, report := t.report, err := s.err ||| t.report.code.errBit })
    (fun _ _ _ _ => rfl) (fun iw i _ reported => ?_) real
  obtain ⟨report, -⟩ | ⟨c, a, raise⟩ := after_quiet_or_raised i (s.preAdvance iw)
  · rw [report] at reported
    exact absurd rfl reported
  · rw [raise]
    rfl

/-- Settles O11: no bit of ERR is lost, since the new one is joined to the old ones. -/
theorem reportAndErrOfEveryCycle : Obligations.ReportAndErrOfEveryCycle := by
  intro s
  have err : s.beforeTick.finishCycle.err = s.err ||| (reportOfCycle s).code.errBit := by
    rw [State.finishCycle_err, State.beforeTick_err, State.beforeTick_report]
  refine ⟨_, step_eq s, ?report, err, ?kept⟩
  case report => rw [State.finishCycle_report, State.beforeTick_report]
  case kept =>
    rw [err]
    ext k hk
    cases h : s.err[k] <;> simp [h]

/-- Settles O12. -/
theorem reportedConditionHasNoOtherEffect : Obligations.ReportedConditionHasNoOtherEffect := by
  intro s t h real
  rw [eq_of_step_eq_next h, State.finishCycle_report] at real ⊢
  exact congrArg State.finishCycle (State.beforeTick_of_reported real)

/-- Settles O59. -/
theorem runCycleHandsBackReport : Obligations.RunCycleHandsBackReport := by
  intro s
  exact ⟨_, step_eq s, by rw [hostCall_eq, hostResult, State.beforeTick_report]⟩

/-! ## PC at the end of a cycle -/

theorem State.skipIf_pc_iff {s : State} {c : Bool} {p : Prop} [Decidable p] (hc : c = true ↔ p) :
    (s.skipIf c).pc = if p then s.pc + 2 else s.pc := by
  rw [State.skipIf_pc]
  exact if_congr hc rfl rfl

theorem State.skipIf_pc_iff_not {s : State} {c : Bool} {p : Prop} [Decidable p]
    (hc : c = true ↔ ¬ p) : (s.skipIf c).pc = if p then s.pc else s.pc + 2 := by
  rw [State.skipIf_pc_iff hc, ite_not]

/-- The key number as the table writes it: the low four bits of Vx. -/
theorem keyIndex_eq (a : Byte) : keyIndex a = BitVec.ofNat 4 a.toNat :=
  BitVec.eq_of_toNat_eq (by rw [toNat_keyIndex, BitVec.toNat_ofNat])

/-- BNNN's target as the table writes it. -/
theorem jumpTarget_eq (nnn : Addr) (a : Byte) :
    jumpTarget nnn a = BitVec.ofNat 12 (nnn.toNat + a.toNat) :=
  BitVec.eq_of_toNat_eq (by rw [toNat_jumpTarget, BitVec.toNat_ofNat])

/-- PC after an executed instruction is the last column of R131's table. -/
theorem after_preAdvance_pc (i : Instr) (s : State) (iw : Word) :
    (after i (s.preAdvance iw)).pc = pcAfterInstr s i := by
  cases i
  case ret =>
    obtain empty | ⟨l, a, top⟩ := s.stack.eq_nil_or_concat'
    · rw [after_ret_of_nil (s := s.preAdvance iw) empty, pcAfterInstr, empty]
      rfl
    · rw [after_ret_of_append (s := s.preAdvance iw) top, pcAfterInstr, top, List.getLast?_concat]
      rfl
  case call nnn =>
    by_cases full : s.cfg.stackDepth = some s.stack.length
    · rw [after_call_of_full (s := s.preAdvance iw) full, pcAfterInstr, if_pos full]
      rfl
    · rw [after_call_of_not_full (s := s.preAdvance iw) full, pcAfterInstr, if_neg full]
      rfl
  case jpV0 => exact jumpTarget_eq _ _
  case seImm | seReg => exact State.skipIf_pc_iff beq_iff_eq
  case sneImm | sneReg => exact State.skipIf_pc_iff_not bne_iff_ne
  case skp x =>
    rw [pcAfterInstr, ← keyIndex_eq]
    exact State.skipIf_pc _ _
  case sknp x =>
    rw [pcAfterInstr, ← keyIndex_eq]
    exact State.skipIf_pc_iff_not (by simp)
  case waitKey x =>
    simp only [pcAfterInstr, after, ← firstKeyDown_eq_none, State.preAdvance_key]
    cases firstKeyDown s.key with
    | none => exact BitVec.add_sub_cancel s.pc 2
    | some k => rfl
  case drw =>
    simp only [after]
    split
    · rfl
    · rw [State.ifInBounds_pc]
      exact ite_self _
  case storeBcd | storeRegs | loadRegs =>
    simp only [after]
    rw [State.ifInBounds_pc]
    exact ite_self _
  all_goals rfl

theorem State.beforeTick_pc (s : State) : s.beforeTick.pc = pcAfterCycle s := by
  unfold State.beforeTick pcAfterCycle
  cases s.fetchWord with
  | none => rfl
  | some iw =>
    cases h : decodeWord iw with
    | error e => simp only [h]; rfl
    | ok i => simp only [h, after_preAdvance_pc]

/-- Settles O10. -/
theorem pcAtEndOfCycle : Obligations.PcAtEndOfCycle := by
  intro s
  exact ⟨_, step_eq s, by rw [State.finishCycle_pc, State.beforeTick_pc]⟩

/-- Settles O55: the jump takes back the pre-advance, and the tick is what remains. -/
theorem jumpToSelfChangesOnlyTimers : Obligations.JumpToSelfChangesOnlyTimers := by
  rintro s ⟨iw, hf, hd⟩
  refine ⟨((s.preAdvance iw).setPc s.pc).finishCycle, ?step, ?err, ?rest⟩
  case step => rw [step_eq, State.beforeTick_of_decoded hf hd]; rfl
  case err => rw [State.finishCycle_err]; rfl
  case rest => rw [State.finishCycle_eq]; rfl

/-! ## The flag -/

/-- The flag comes first and the result is written to another register: VF holds the flag (R125). -/
theorem State.flagThenResult_flag {s : State} {x : Nibble} (other : (vF == x) = false) (b : Byte)
    (f : Bool) : (s.flagThenResult x b f).reg vF = flagByte f := by
  rw [State.reg_flagThenResult, if_neg (by simpa using other), if_pos rfl]

/-- An instruction that writes VF as a flag, VF being no destination of it, leaves a flag there unless it
reports (R24). -/
theorem after_flag {i : Instr} {s : State} (writes : Instr.writesFlag i = true)
    (other : Instr.writesOperand vF i = false) (silent : (after i s).report.code = .noCondition) :
    ∃ f, (after i s).reg vF = flagByte f := by
  cases i
  case addReg => exact ⟨_, by rw [after, State.reg_resultThenFlag, if_pos rfl]⟩
  case subReg | shr | subnReg | shl => exact ⟨_, State.flagThenResult_flag other _ _⟩
  case addI => exact ⟨_, by rw [after, State.reg_setReg, if_pos rfl]⟩
  case drw x y n =>
    by_cases low : n = 0#4 ∨ s.i.toNat + n.toNat - 1 ≤ 0xFFF
    · exact ⟨_, by rw [after_drw_of_le low, State.drawSprite_reg, if_pos rfl]⟩
    · obtain ⟨rows, out⟩ := not_or.mp low
      rw [after_drw_of_lt rows (Nat.lt_of_not_le out)] at silent
      cases silent
  all_goals cases writes

/-- Settles O53. -/
theorem flagIsZeroOrOne : Obligations.FlagIsZeroOrOne := by
  rintro s i ⟨iw, hf, hd⟩ writes other
  refine ⟨_, step_eq s, fun silent => ?_⟩
  rw [State.finishCycle_report, State.beforeTick_of_decoded hf hd] at silent
  rw [State.finishCycle_reg, State.beforeTick_of_decoded hf hd]
  obtain ⟨f, flag⟩ := after_flag writes other silent
  rw [flag]
  exact flagByte_eq_zero_or_one f

end Sys2Proof.Machine
end

section
/-! What a cycle does not depend on: ERR and the report (10_state.md R33 and R34) and, but for CXKK, the draw
count that gives the random byte (40_cycle.md R132). States that differ in these three fields alone lead to states
that differ in them alone; O13 and O14. -/

namespace Sys2Proof.Machine

/-- The state with other values in the three fields that no instruction but CXKK reads. -/
def State.withUnread (s : State) (e : BitVec 4) (r : Report) (n : Nat) : State :=
  { s with err := e, report := r, rndCount := n }

theorem State.withUnread_key (s : State) (e : BitVec 4) (r : Report) (n : Nat) :
    (s.withUnread e r n).key = s.key := rfl

/-- The tick reads none of the three and counts the draw (R128, R238). -/
theorem State.finishCycle_withUnread (s : State) (e : BitVec 4) (r : Report) (n : Nat) :
    (s.withUnread e r n).finishCycle = s.finishCycle.withUnread e r (n + 1) := by
  obtain ⟨tdiv, dt, st⟩ :=
    State.timerTick_congr (s := s) (t := s.withUnread e r n) rfl rfl rfl rfl
  rw [State.finishCycle_eq, State.finishCycle_eq s, tdiv, dt, st]
  rfl

/-- `t` is `s` but for ERR, the report and the draw count. -/
def DiffersUnread (s t : State) : Prop := ∃ e r n, t = s.withUnread e r n

theorem DiffersUnread.ifInBounds {s t e u : State} (h : DiffersUnread s t)
    (effect : DiffersUnread e u) (highest : Nat) :
    DiffersUnread (s.ifInBounds highest e) (t.ifInBounds highest u) := by
  obtain ⟨_, _, _, rfl⟩ := h
  unfold State.ifInBounds
  split
  · exact ⟨_, _, _, rfl⟩
  · exact effect

/-- An instruction that is not CXKK, or that draws the same byte in both states, has the same effect in both. -/
theorem DiffersUnread.after {s t : State} (h : DiffersUnread s t) {i : Instr}
    (byte : (∀ x kk, i ≠ .rnd x kk) ∨ t.rndCount = s.rndCount) :
    DiffersUnread (after i s) (after i t) := by
  have unread := h
  obtain ⟨e, r, n, rfl⟩ := h
  cases i
  case rnd x kk =>
    obtain same : n = s.rndCount := byte.resolve_left fun other => other x kk rfl
    subst same
    exact ⟨_, _, _, rfl⟩
  case ret =>
    obtain empty | ⟨l, a, top⟩ := s.stack.eq_nil_or_concat'
    · rw [after_ret_of_nil empty, after_ret_of_nil (s := s.withUnread e r n) empty]
      exact ⟨_, _, _, rfl⟩
    · rw [after_ret_of_append top, after_ret_of_append (s := s.withUnread e r n) top]
      exact ⟨_, _, _, rfl⟩
  case call nnn =>
    by_cases full : s.cfg.stackDepth = some s.stack.length
    · rw [after_call_of_full full, after_call_of_full (s := s.withUnread e r n) full]
      exact ⟨_, _, _, rfl⟩
    · rw [after_call_of_not_full full, after_call_of_not_full (s := s.withUnread e r n) full]
      exact ⟨_, _, _, rfl⟩
  case seImm | sneImm | seReg | sneReg | skp | sknp =>
    simp only [Machine.after, State.skipIf_eq]
    exact ⟨e, r, n, rfl⟩
  case waitKey x =>
    simp only [Machine.after, State.withUnread_key]
    cases firstKeyDown s.key <;> exact ⟨e, r, n, rfl⟩
  case drw x y k =>
    by_cases rows : k = 0#4
    · rw [after_drw_of_le (.inl rows), after_drw_of_le (.inl rows)]
      exact ⟨_, _, _, rfl⟩
    · rw [after_drw_of_rows rows, after_drw_of_rows rows]
      exact unread.ifInBounds ⟨_, _, _, rfl⟩ _
  case storeBcd | storeRegs | loadRegs => exact unread.ifInBounds ⟨e, r, n, rfl⟩ _
  all_goals exact ⟨e, r, n, rfl⟩

theorem DiffersUnread.beforeTick {s t : State} (h : DiffersUnread s t)
    (byte : (∀ x kk, ¬ Executes s (.rnd x kk)) ∨ t.rndCount = s.rndCount) :
    DiffersUnread s.beforeTick t.beforeTick := by
  obtain ⟨e, r, n, rfl⟩ := h
  cases hf : s.fetchWord with
  | none =>
    rw [State.beforeTick_of_no_fetch hf, State.beforeTick_of_no_fetch (s := s.withUnread e r n) hf]
    exact ⟨_, _, _, rfl⟩
  | some iw =>
    cases hd : decodeWord iw with
    | error _ =>
      rw [State.beforeTick_of_unknown hf hd,
        State.beforeTick_of_unknown (s := s.withUnread e r n) hf hd]
      exact ⟨_, _, _, rfl⟩
    | ok i =>
      rw [State.beforeTick_of_decoded hf hd,
        State.beforeTick_of_decoded (s := s.withUnread e r n) hf hd]
      refine DiffersUnread.after ⟨_, _, _, rfl⟩ (byte.imp_left fun absent x kk isRnd => ?_)
      subst isRnd
      exact absent x kk ⟨iw, hf, hd⟩

theorem DiffersUnread.finishCycle {s t : State} (h : DiffersUnread s t) :
    DiffersUnread s.finishCycle t.finishCycle := by
  obtain ⟨e, r, n, rfl⟩ := h
  exact ⟨e, r, n + 1, State.finishCycle_withUnread s e r n⟩

@[simp] theorem State.beforeTick_rndCount (s : State) : s.beforeTick.rndCount = s.rndCount :=
  State.beforeTick_of_frame (P := fun t => t.rndCount = s.rndCount) (fun _ _ _ => rfl)
    fun _ _ _ frame => frame.draws

/-! ## The diagnostic channel -/

theorem withoutDiagnostics_eq_iff {s t : State} : s.withoutDiagnostics = t.withoutDiagnostics ↔
    DiffersUnread s t ∧ t.rndCount = s.rndCount := by
  constructor
  · intro same
    refine ⟨⟨t.err, t.report, t.rndCount, ?_⟩, (congrArg State.rndCount same).symm⟩
    exact congrArg (fun u : State => { u with err := t.err, report := t.report, rndCount := t.rndCount })
      same.symm
  · rintro ⟨⟨e, r, n, rfl⟩, same⟩
    obtain rfl : n = s.rndCount := same
    rfl

/-- Settles O13: the two cycles draw the same byte, and neither reads ERR or the report. -/
theorem diagnosticsDoNotFeedBack : Obligations.DiagnosticsDoNotFeedBack := by
  intro s t same
  obtain ⟨unread, byte⟩ := withoutDiagnostics_eq_iff.mp same
  refine ⟨_, _, step_eq s, step_eq t, withoutDiagnostics_eq_iff.mpr ⟨?_, ?_⟩⟩
  · exact (unread.beforeTick (.inr byte)).finishCycle
  · rw [State.finishCycle_rndCount, State.finishCycle_rndCount, State.beforeTick_rndCount,
      State.beforeTick_rndCount, byte]

/-! ## The random byte -/

theorem reportOfCycle_setRndCount (s : State) (n : Nat) :
    reportOfCycle (s.setRndCount n) = reportOfCycle s := rfl

/-- A cycle that executes no CXKK carries another draw count through to its tick. -/
theorem State.beforeTick_setRndCount {s : State} (absent : ∀ x kk, ¬ Executes s (.rnd x kk)) (n : Nat) :
    (s.setRndCount n).beforeTick = s.beforeTick.setRndCount n := by
  have report : (s.setRndCount n).beforeTick.report = s.beforeTick.report := by
    rw [State.beforeTick_report, State.beforeTick_report, reportOfCycle_setRndCount]
  have err : (s.setRndCount n).beforeTick.err = s.beforeTick.err := by
    rw [State.beforeTick_err, State.beforeTick_err, report, State.setRndCount_err]
  have count := State.beforeTick_rndCount (s.setRndCount n)
  have unread : DiffersUnread s (s.setRndCount n) := ⟨_, _, _, rfl⟩
  obtain ⟨e, r, m, eq⟩ := unread.beforeTick (.inl absent)
  rw [eq] at report err count ⊢
  obtain rfl : r = s.beforeTick.report := report
  obtain rfl : e = s.beforeTick.err := err
  obtain rfl : m = n := count
  rfl

theorem State.finishCycle_setRndCount (s : State) (n : Nat) :
    (s.setRndCount n).finishCycle = s.finishCycle.setRndCount (n + 1) := by
  refine (State.finishCycle_withUnread s s.err s.report n).trans ?_
  rw [State.finishCycle_eq]
  rfl

/-- Settles O14. -/
theorem randomByteUsedByRndOnly : Obligations.RandomByteUsedByRndOnly := by
  intro s n absent
  refine ⟨_, step_eq s, ?_⟩
  rw [step_eq, State.beforeTick_setRndCount absent]
  exact congrArg Host.Outcome.next (State.finishCycle_setRndCount _ n)

end Sys2Proof.Machine
end
